-- ==== Sys2Proof/Word.lean ====
section
/-! DEFINITION. The word types of the block and the plainest things said about them (00_scope.md R9). -/

namespace Sys2Proof

/-- A 32-bit register or command word (10_state.md R25, 30_encoding.md R90). -/
abbrev Word := BitVec 32

/-- A byte lane of the bus, or one channel value of a color. -/
abbrev Byte := BitVec 8

/-- A color `{r[7:0], g[7:0], b[7:0]}`: red 23:16, green 15:8, blue 7:0 (10_state.md R24). -/
abbrev Color := BitVec 24

/-- A tick field of the timing table (10_state.md R22). -/
abbrev Tick := BitVec 16

end Sys2Proof
end

