-- ==== Sys2Proof/Syntax.lean ====
section
/-! DEFINITION. The commands of 30_encoding.md R91, one constructor per mnemonic of spec/opcode_table.json. A command
has no operand of its own: its operands are registers of the bank it is written to (R93). -/

namespace Sys2Proof

/-- A command word, decoded. The seven rows ILLEGAL of the table (0xA to 0xF, and every word with bits 31:4 not 0)
have one mnemonic, one rule and one effect (44_control.md R212): one constructor, which keeps the word. -/
inductive Instr where
  | nop
  | tblInit
  | pixWr
  | pixRd
  | pixFill
  | pixClr
  | encode
  | xmit
  | cycle
  | clrStat
  | illegal (word : Word)
  deriving DecidableEq, Repr

end Sys2Proof
end

