-- ==== Sys2Proof/WellFormed.lean ====
section
/-! DEFINITION. Which terms of `Instr` stand for a command word. -/

namespace Sys2Proof

/-- 30_encoding.md R95: a word is illegal when bits 31:4 are not 0, or `op` (bits 3:0) is in `0xA .. 0xF`. -/
def isReservedWord (v : Word) : Bool :=
  v.extractLsb' 4 28 != 0 || decide (0xA ≤ (v.extractLsb' 0 4).toNat)

/-- Every command is well formed; `illegal` carries a word that 30_encoding.md R95 calls illegal. -/
def Instr.wf : Instr → Bool
  | .nop => true
  | .tblInit => true
  | .pixWr => true
  | .pixRd => true
  | .pixFill => true
  | .pixClr => true
  | .encode => true
  | .xmit => true
  | .cycle => true
  | .clrStat => true
  | .illegal v => isReservedWord v

end Sys2Proof
end

