-- ==== Sys2Proof/Decode.lean ====
section
/-! DEFINITION. The decoder of 30_encoding.md R92, total on every word and on any bytes, the encoder, and the opcode
table as data. -/

namespace Sys2Proof

/-- Field `op`, bits 3:0 (30_encoding.md R90). -/
def opField (v : Word) : BitVec 4 := v.extractLsb' 0 4

/-- Field `rsv`, bits 31:4 (30_encoding.md R90). -/
def rsvField (v : Word) : BitVec 28 := v.extractLsb' 4 28

/-- 30_encoding.md R92: the command of a word written to CMD; every other word is illegal. -/
def decodeWord (v : Word) : Instr :=
  if rsvField v ≠ 0 then .illegal v
  else
    match (opField v).toNat with
    | 0x0 => .nop
    | 0x1 => .tblInit
    | 0x2 => .pixWr
    | 0x3 => .pixRd
    | 0x4 => .pixFill
    | 0x5 => .pixClr
    | 0x6 => .encode
    | 0x7 => .xmit
    | 0x8 => .cycle
    | 0x9 => .clrStat
    | _ => .illegal v

/-- Byte lane `j` of a 32-bit access carries bits `8j+7 : 8j` (20_memory.md R64). -/
def byteLane (v : Word) (j : Nat) : Byte := v.extractLsb' (8 * j) 8

/-- The four bytes of a word, lane 0 first (20_memory.md R64). -/
def wordBytes (v : Word) : List Byte := [byteLane v 0, byteLane v 1, byteLane v 2, byteLane v 3]

/-- The word whose byte lanes 0 to 3 are `b0` to `b3` (20_memory.md R64). -/
def wordOfBytes (b0 b1 b2 b3 : Byte) : Word := b3 ++ b2 ++ b1 ++ b0

/-- Why bytes are no command: fewer than the four of one 32-bit word (30_encoding.md R94, 20_memory.md R62). -/
inductive DecodeError where
  | truncated (bytes : Nat)
  deriving DecidableEq, Repr

/-- 30_encoding.md R94: the decoder consumes exactly one 32-bit word. Answers the command and the bytes after it. -/
def decodeBytes : List Byte → Except DecodeError (Instr × List Byte)
  | b0 :: b1 :: b2 :: b3 :: rest => .ok (decodeWord (wordOfBytes b0 b1 b2 b3), rest)
  | bs => .error (.truncated bs.length)

/-- The word of a command, from 30_encoding.md R91; an illegal word is itself. -/
def encode : Instr → Word
  | .nop => 0x00000000
  | .tblInit => 0x00000001
  | .pixWr => 0x00000002
  | .pixRd => 0x00000003
  | .pixFill => 0x00000004
  | .pixClr => 0x00000005
  | .encode => 0x00000006
  | .xmit => 0x00000007
  | .cycle => 0x00000008
  | .clrStat => 0x00000009
  | .illegal v => v

/-- The command as the bus carries it, byte lane 0 first (20_memory.md R64). -/
def encodeBytes (i : Instr) : List Byte := wordBytes (encode i)

/-- One row of spec/opcode_table.json: a word `w` is of the row when `w` masked with `mask` equals `pattern`. A row ILLEGAL
names no command. -/
structure OpcodeRow where
  mnemonic : String
  pattern : Word
  mask : Word
  command : Option Instr
  deriving DecidableEq, Repr

/-- What a word of the row decodes to. -/
def OpcodeRow.decode (r : OpcodeRow) (w : Word) : Instr := r.command.getD (.illegal w)

/-- spec/opcode_table.json, in its order. -/
def opcodeTable : List OpcodeRow :=
  [⟨"NOP", 0x00000000, 0xFFFFFFFF, some .nop⟩,
   ⟨"TBL_INIT", 0x00000001, 0xFFFFFFFF, some .tblInit⟩,
   ⟨"PIX_WR", 0x00000002, 0xFFFFFFFF, some .pixWr⟩,
   ⟨"PIX_RD", 0x00000003, 0xFFFFFFFF, some .pixRd⟩,
   ⟨"PIX_FILL", 0x00000004, 0xFFFFFFFF, some .pixFill⟩,
   ⟨"PIX_CLR", 0x00000005, 0xFFFFFFFF, some .pixClr⟩,
   ⟨"ENCODE", 0x00000006, 0xFFFFFFFF, some .encode⟩,
   ⟨"XMIT", 0x00000007, 0xFFFFFFFF, some .xmit⟩,
   ⟨"CYCLE", 0x00000008, 0xFFFFFFFF, some .cycle⟩,
   ⟨"CLR_STAT", 0x00000009, 0xFFFFFFFF, some .clrStat⟩]
  ++
  [⟨"ILLEGAL", 0x0000000A, 0xFFFFFFFF, none⟩,
   ⟨"ILLEGAL", 0x0000000B, 0xFFFFFFFF, none⟩,
   ⟨"ILLEGAL", 0x0000000C, 0xFFFFFFFF, none⟩,
   ⟨"ILLEGAL", 0x0000000D, 0xFFFFFFFF, none⟩,
   ⟨"ILLEGAL", 0x0000000E, 0xFFFFFFFF, none⟩,
   ⟨"ILLEGAL", 0x0000000F, 0xFFFFFFFF, none⟩,
   ⟨"ILLEGAL", 0x00000000, 0x00000000, none⟩]

/-- The first row of the table a word is of ("Match rows in order", the table's note). -/
def tableRow (w : Word) : Option OpcodeRow :=
  opcodeTable.find? fun r => w &&& r.mask == r.pattern

/-- The bytes of a table word: bit 0 is the least significant bit of the word, bits from `nbits` on are 0, and the word
is laid out byte lane 0 first. -/
def tableWord (nbits w : Nat) : Word := BitVec.ofNat 32 (w % 2 ^ nbits)

/-- The command this decoder reads from a table word. -/
def decodeTableWord (nbits w : Nat) : Option Instr :=
  match decodeBytes (wordBytes (tableWord nbits w)) with
  | .ok (i, _) => some i
  | .error _ => none

end Sys2Proof
end

