-- ==== Sys2Proof/Config.lean ====
section
/-! DEFINITION. What an instance of the block is built with (00_scope.md R6), what its environment may do
(10_state.md R20, 20_memory.md R71, 42_transmit.md R173), and the one free value. -/

namespace Sys2Proof

/-- One of the three channels of a color. -/
inductive Primary where
  | red
  | green
  | blue
  deriving DecidableEq, Repr

/-- `CHANNEL_ORDER` (P3): a permutation of (R,G,B); `grb` is (G,R,B). -/
inductive ChannelOrder where
  | rgb
  | rbg
  | grb
  | gbr
  | brg
  | bgr
  deriving DecidableEq, Repr

/-- `TICK_ROUNDING` (P9). -/
inductive TickRounding where
  | floor
  | nearest
  deriving DecidableEq, Repr

/-- `ATTEN_ROUNDING` (P11). -/
inductive AttenRounding where
  | halfUp
  | floor
  deriving DecidableEq, Repr

/-- The parameters P1 to P13 of 00_scope.md R6. -/
structure Params where
  /-- P1 `N` -/
  n : Nat
  /-- P2 `PAD_EXTRA_LED` -/
  padExtraLed : Bool
  /-- P3 `CHANNEL_ORDER` -/
  channelOrder : ChannelOrder
  /-- P4 `T0H_NS` -/
  t0hNs : Nat
  /-- P5 `T0L_NS` -/
  t0lNs : Nat
  /-- P6 `T1H_NS` -/
  t1hNs : Nat
  /-- P7 `T1L_NS` -/
  t1lNs : Nat
  /-- P8 `TRESET_NS` -/
  tresetNs : Nat
  /-- P9 `TICK_ROUNDING` -/
  tickRounding : TickRounding
  /-- P10 `TICK_MAX` -/
  tickMax : Nat
  /-- P11 `ATTEN_ROUNDING` -/
  attenRounding : AttenRounding
  /-- P12 `ATTEN_IN_PLACE` -/
  attenInPlace : Bool
  /-- P13 `K` -/
  k : Nat
  deriving DecidableEq, Repr

/-- The defaults of 00_scope.md R6. `N` has none there.
DESIGN CHOICE (log 1, unsafe): `N = 10`, the LED count of the source's own example (95_test_vectors.md S8). -/
def Config.params : Params where
  n := 10
  padExtraLed := false
  channelOrder := .grb
  t0hNs := 350
  t0lNs := 800
  t1hNs := 700
  t1lNs := 600
  tresetNs := 50000
  tickRounding := .floor
  tickMax := 32767
  attenRounding := .halfUp
  attenInPlace := true
  k := 1

/-- The width of a bus access; only `w32` is admitted (20_memory.md R62). -/
inductive Width where
  | w8
  | w16
  | w32
  | w64
  deriving DecidableEq, Repr

/-- A read, or a write of a value (20_memory.md R66, R67). -/
inductive Dir where
  | read
  | write (value : Word)
  deriving DecidableEq, Repr

/-- One bus access of a host (20_memory.md R60 to R62). -/
structure Access where
  addr : Word
  width : Width
  dir : Dir
  deriving DecidableEq, Repr

/-- The draw a transmitter takes at each step (42_transmit.md R173). -/
inductive Draw where
  | cont
  | fail
  deriving DecidableEq, Repr

/-- The result a transmitter reports (42_transmit.md R175). -/
inductive TxResult where
  | ok
  | fail
  deriving DecidableEq, Repr

/-- One move of the machine's environment: the agent that takes the next step (20_memory.md R71), with the
two draws where it is a transmitter (42_transmit.md R173, R175: `result` is looked at only when the
step finishes the transmission), or a block reset (70_reset_and_hazards.md R260). -/
inductive Move where
  | host (channel : Nat)
  | tx (channel : Nat) (draw : Draw) (result : TxResult)
  | reset
  deriving DecidableEq, Repr, Inhabited

/-- FREE VALUE (log 2): the move the environment makes when State lists no further one, for each number of moves made
so far. It has no body: which agent moves and what it draws is under no law (00_scope.md R11 `draw()`,
20_memory.md R71). -/
opaque Config.freeMove : Nat → Move

end Sys2Proof
end

