-- ==== Sys2Proof/Machine/Params.lean ====
section
/-! DEFINITION. What 00_scope.md R6 to R8 derive from the parameters. -/

namespace Sys2Proof

/-- `NE = N + (PAD_EXTRA_LED ? 1 : 0)`, the effective LED count (00_scope.md R7). -/
def Params.ne (p : Params) : Nat := p.n + (if p.padExtraLed then 1 else 0)

/-- The number of pulses of a frame, `48*NE + 1` (30_encoding.md R98). -/
def Params.frameLen (p : Params) : Nat := 48 * p.ne + 1

/-- A nominal phase duration lies in `1..999` ns (00_scope.md R6 P4 to P7, R8). -/
def Params.phaseOk (ns : Nat) : Bool := decide (1 ≤ ns) && decide (ns ≤ 999)

/-- The constraints of 00_scope.md R8, with the range R6 gives `TICK_MAX`. -/
def Params.ok (p : Params) : Bool :=
  Params.phaseOk p.t0hNs && Params.phaseOk p.t0lNs && Params.phaseOk p.t1hNs && Params.phaseOk p.t1lNs
  && decide (10000 ≤ p.tresetNs) && decide (p.tresetNs ≤ 99999)
  && decide (p.t0hNs < p.t1hNs)
  && decide (1 ≤ p.tickMax) && decide (p.tickMax < 2 ^ 16)
  && decide (1 ≤ p.k) && decide (p.k ≤ 64)
  && decide (p.frameLen < 2 ^ 32)

/-- The three channel slots of `CHANNEL_ORDER`, first on the wire first (41_encode.md R143). -/
def ChannelOrder.slots : ChannelOrder → List Primary
  | .rgb => [.red, .green, .blue]
  | .rbg => [.red, .blue, .green]
  | .grb => [.green, .red, .blue]
  | .gbr => [.green, .blue, .red]
  | .brg => [.blue, .red, .green]
  | .bgr => [.blue, .green, .red]

end Sys2Proof
end

