-- ==== Sys2Proof/Machine/State.lean ====
section
/-! DEFINITION. The state of the block and of its agents, as plain data, and its value at reset
(10_state.md, 70_reset_and_hazards.md R261). -/

namespace Sys2Proof.Machine

/-- The level of a pulse or of the output line: HIGH (1) or LOW (0) (00_scope.md R12). -/
inductive Level where
  | high
  | low
  deriving DecidableEq, Repr

/-- A pulse `(ticks, level)` (00_scope.md R12). -/
structure Pulse where
  ticks : Nat
  level : Level
  deriving DecidableEq, Repr

/-- One `emit(t, lvl)` event on an output line, with the clock rate it was emitted at (42_transmit.md R176). -/
structure Emission where
  pulse : Pulse
  clk : Word
  deriving DecidableEq, Repr

/-- The error codes of 60_exceptions.md R230; 7 to 15 are never raised. -/
inductive ErrCode where
  | none
  | noClock
  | tickRange
  | encNoTable
  | noFrame
  | xmitFail
  | illegalCmd
  deriving DecidableEq, Repr

/-- The shared timing table `TBL` (10_state.md R22). -/
structure Table where
  valid : Bool
  clk : Word
  t0h : Tick
  t0l : Tick
  t1h : Tick
  t1l : Tick
  trst : Tick
  deriving DecidableEq, Repr

/-- The pixel buffer of one channel, index 0 first: the block's only memory array (10_state.md R24). -/
abbrev Memory := List Color

/-- The transmitter agent `TX_k` (10_state.md R37). -/
structure Tx where
  active : Bool
  frame : List Pulse
  clk : Word
  pos : Nat
  line : Level
  deriving DecidableEq, Repr

/-- The host agent `H_k`: its hold (10_state.md R38), and, as the model's own fields (log 5), the accesses it has still
to issue and the values its reads returned, oldest first. -/
structure HostAgent where
  held : Bool
  prog : List Access
  inbox : List Word
  deriving DecidableEq, Repr

/-- One channel: the stored part of its register bank (10_state.md R25 to R32), its pixel buffer (R24), its frame (R36),
its transmitter (R37), its output line's pulse stream (20_memory.md R60, 42_transmit.md R176; oldest first) and
its host (R38). -/
structure Channel where
  /-- CTRL.ATTEN_EN -/
  attenEn : Bool
  /-- CLK_HZ -/
  clkHz : Word
  /-- PIX_IDX -/
  pixIdx : Word
  /-- PIX_DATA bits 23:0; bits 31:24 read 0 and are not stored (R31) -/
  pixData : Color
  /-- FRAME_LEN -/
  frameLen : Word
  /-- STATUS.FRAME_VALID -/
  frameValid : Bool
  /-- STATUS.BUSY -/
  busy : Bool
  /-- STATUS.DUP_WARN -/
  dupWarn : Bool
  /-- STATUS.INIT_FAIL -/
  initFail : Bool
  /-- STATUS.ENC_ERR -/
  encErr : Bool
  /-- STATUS.XMIT_ERR -/
  xmitErr : Bool
  /-- STATUS.ILL_CMD -/
  illCmd : Bool
  /-- STATUS.ERR_CODE -/
  errCode : ErrCode
  /-- PIX -/
  pix : Memory
  /-- FRAME -/
  frame : List Pulse
  /-- FRAME_CLK -/
  frameClk : Word
  /-- TX_ACTIVE, TX_FRAME, TX_CLK, TX_POS, LINE -/
  tx : Tx
  /-- the pulses the output line has carried -/
  stream : List Emission
  /-- HELD and the host's own data -/
  host : HostAgent
  deriving DecidableEq, Repr

/-- The machine: parameters (00_scope.md R6), shared table, channels; and the model's own fields: the channel whose command
is being executed (log 7), the moves the environment will make and how many it has made (log 2). -/
structure State where
  par : Params
  tbl : Table
  chans : List Channel
  cur : Nat
  moves : List Move
  count : Nat
  deriving DecidableEq, Repr

/-- How the model stops where the spec says an access "has no step" (93_implementation_defined.md part 2, `stuck`). -/
inductive Fault where
  /-- A host's access is not 32 bits wide (20_memory.md R62). Raised by the bus, `admission`. Safe: the access is not admitted. -/
  | wrongWidth
  /-- A host's access is not 4-byte aligned (20_memory.md R62). Raised by `admission`. Safe. -/
  | misaligned
  /-- A host's access is at or above `K*0x40` (20_memory.md R61). Raised by `admission`. Safe. -/
  | unmapped
  /-- A host's access is to another channel's bank (10_state.md R21, 20_memory.md R77). Raised by `admission`. Safe. -/
  | foreignBank
  /-- A command is executed for a channel the machine does not have (20_memory.md R61; log 7). Raised by `State.onCur` and
  `State.withCur`. Safe: the bus admits no such access. -/
  | noChannel
  deriving DecidableEq, Repr

/-- Why a step is refused. -/
inductive Refusal where
  /-- An arm of `exec` whose instruction has no meaning yet. Raised by `exec` only; safe. No arm raises it in this model. -/
  | notModelled (mnemonic : String)
  deriving DecidableEq, Repr

/-- 10_state.md R22: every field 0. -/
def Table.reset : Table where
  valid := false
  clk := 0
  t0h := 0
  t0l := 0
  t1h := 0
  t1l := 0
  trst := 0

/-- 10_state.md R37. -/
def Tx.reset : Tx where
  active := false
  frame := []
  clk := 0
  pos := 0
  line := .low

/-- 10_state.md R38; the host's own data is empty (log 5). -/
def HostAgent.reset : HostAgent where
  held := false
  prog := []
  inbox := []

/-- 10_state.md R24: `ne` black entries. -/
def Memory.reset (ne : Nat) : Memory := List.replicate ne 0

/-- A channel at reset (70_reset_and_hazards.md R261). -/
def Channel.reset (p : Params) : Channel where
  attenEn := true
  clkHz := 0
  pixIdx := 0
  pixData := 0
  frameLen := 0
  frameValid := false
  busy := false
  dupWarn := false
  initFail := false
  encErr := false
  xmitErr := false
  illCmd := false
  errCode := .none
  pix := Memory.reset p.ne
  frame := []
  frameClk := 0
  tx := Tx.reset
  stream := []
  host := HostAgent.reset

/-- The state right after block reset of an instance with parameters `p` (70_reset_and_hazards.md R260, R261). -/
def State.resetWith (p : Params) : State where
  par := p
  tbl := Table.reset
  chans := List.replicate p.k (Channel.reset p)
  cur := 0
  moves := []
  count := 0

/-- The state right after reset, at the default parameters of 00_scope.md R6 (log 1). -/
def State.reset : State := State.resetWith Config.params

end Sys2Proof.Machine
end

