-- ==== Sys2Proof/Machine/Operands.lean ====
section
/-! DEFINITION. The operands of the commands: the register map of a bank (10_state.md R25), the fields of a color
(R24, 30_encoding.md R93) and the attenuation of a color (41_encode.md R141). -/

namespace Sys2Proof.Machine

/-! The register map -/

/-- The registers of a bank by name (10_state.md R25). -/
inductive RegName where
  | cmd
  | status
  | ctrl
  | clkHz
  | ledCount
  | pixIdx
  | pixData
  | frameLen
  | t0Ticks
  | t1Ticks
  | trstTicks
  | tblClkHz
  deriving DecidableEq, Repr

/-- A slot of a bank: a register, or one of the reserved slots `0x30 .. 0x3C` (10_state.md R25). -/
inductive Reg where
  | named (r : RegName)
  | reserved
  deriving DecidableEq, Repr

/-- The byte offset of a register in its bank (10_state.md R25). -/
def RegName.offset : RegName → Nat
  | .cmd => 0x00
  | .status => 0x04
  | .ctrl => 0x08
  | .clkHz => 0x0C
  | .ledCount => 0x10
  | .pixIdx => 0x14
  | .pixData => 0x18
  | .frameLen => 0x1C
  | .t0Ticks => 0x20
  | .t1Ticks => 0x24
  | .trstTicks => 0x28
  | .tblClkHz => 0x2C

/-- The slot at an offset of a bank, the offset a multiple of 4 below 0x40 (20_memory.md R63). -/
def Reg.ofOffset : Nat → Reg
  | 0x00 => .named .cmd
  | 0x04 => .named .status
  | 0x08 => .named .ctrl
  | 0x0C => .named .clkHz
  | 0x10 => .named .ledCount
  | 0x14 => .named .pixIdx
  | 0x18 => .named .pixData
  | 0x1C => .named .frameLen
  | 0x20 => .named .t0Ticks
  | 0x24 => .named .t1Ticks
  | 0x28 => .named .trstTicks
  | 0x2C => .named .tblClkHz
  | _ => .reserved

/-- The bank base `B_k = k * 0x40` (10_state.md R25). -/
def bankBase (k : Nat) : Nat := k * 0x40

/-! Colors -/

/-- `c[23:16]` (10_state.md R24). -/
def redOf (c : Color) : Byte := c.extractLsb' 16 8

/-- `c[15:8]` (10_state.md R24). -/
def greenOf (c : Color) : Byte := c.extractLsb' 8 8

/-- `c[7:0]` (10_state.md R24). -/
def blueOf (c : Color) : Byte := c.extractLsb' 0 8

/-- `{r, g, b}` (10_state.md R24). -/
def mkColor (r g b : Byte) : Color := r ++ g ++ b

/-- The byte of a color that a channel slot sends (41_encode.md R143). -/
def byteOf (ch : Primary) (c : Color) : Byte :=
  match ch with
  | .red => redOf c
  | .green => greenOf c
  | .blue => blueOf c

/-- Bits 23:0 of a value written to PIX_DATA (10_state.md R31, 20_memory.md R67). -/
def colorOfWord (v : Word) : Color := v.extractLsb' 0 24

/-! Attenuation -/

/-- `half(v)` (41_encode.md R141): `(v+1)/2` under HALF_UP, `v/2` under FLOOR, in exact arithmetic. -/
def half (r : AttenRounding) (v : Byte) : Byte :=
  match r with
  | .halfUp => BitVec.ofNat 8 ((v.toNat + 1) / 2)
  | .floor => BitVec.ofNat 8 (v.toNat / 2)

/-- `A(c) = {half(r), half(g), half(b)}` (41_encode.md R141). -/
def attenuate (r : AttenRounding) (c : Color) : Color :=
  mkColor (half r (redOf c)) (half r (greenOf c)) (half r (blueOf c))

/-- The color the serializer sends for a stored color: attenuated while ATTEN_EN is 1 (41_encode.md R143). -/
def sentColor (p : Params) (en : Bool) (c : Color) : Color :=
  if en then attenuate p.attenRounding c else c

end Sys2Proof.Machine
end

