-- ==== Sys2Proof/Machine/Flags.lean ====
section
/-! DEFINITION. STATUS: its fields as one word (10_state.md R26), and the operations that set and clear them. -/

namespace Sys2Proof.Machine

/-- The value of STATUS.ERR_CODE (60_exceptions.md R230). -/
def ErrCode.code : ErrCode → BitVec 4
  | .none => 0
  | .noClock => 1
  | .tickRange => 2
  | .encNoTable => 3
  | .noFrame => 4
  | .xmitFail => 5
  | .illegalCmd => 6

/-- STATUS as a read returns it (10_state.md R26): bits 31:12 are 0, 11:8 ERR_CODE, then ILL_CMD, XMIT_ERR, ENC_ERR,
INIT_FAIL, DUP_WARN, BUSY, FRAME_VALID, and bit 0 TBL_VALID, the live view of `TBL.valid`. -/
def statusWord (t : Table) (c : Channel) : Word :=
  (0 : BitVec 20) ++ c.errCode.code ++ BitVec.ofBool c.illCmd ++ BitVec.ofBool c.xmitErr
    ++ BitVec.ofBool c.encErr ++ BitVec.ofBool c.initFail ++ BitVec.ofBool c.dupWarn
    ++ BitVec.ofBool c.busy ++ BitVec.ofBool c.frameValid ++ BitVec.ofBool t.valid

/-- CTRL as a read returns it: bit 0 ATTEN_EN, the rest 0 (10_state.md R27). -/
def ctrlWord (c : Channel) : Word := BitVec.setWidth 32 (BitVec.ofBool c.attenEn)

/-- The start of an ENCODE: the per-cycle flag ENC_ERR is cleared (10_state.md R26, 41_encode.md R144). -/
def Channel.clearEncErr (c : Channel) : Channel := { c with encErr := false }

/-- The start of an XMIT: the per-cycle flag XMIT_ERR is cleared (10_state.md R26, 42_transmit.md R170). -/
def Channel.clearXmitErr (c : Channel) : Channel := { c with xmitErr := false }

/-- CLR_STAT clears STATUS bits 3 to 11 (44_control.md R211). -/
def Channel.clearStatus (c : Channel) : Channel :=
  { c with
    dupWarn := false
    initFail := false
    encErr := false
    xmitErr := false
    illCmd := false
    errCode := .none }

end Sys2Proof.Machine
end

