-- ==== Sys2Proof/Machine/Ops.lean ====
section
/-! DEFINITION. The shared operations: recording an error, reaching a channel, the pixel buffer, reading and writing a
register of a bank, block reset, and the environment's moves. -/

namespace Sys2Proof.Machine

/-! Recording an error -/

/-- `raise Err(code)`: ERR_CODE of the bank takes the code, and nothing else happens; it is no trap
(60_exceptions.md R231, R237). The flag beside it is the raising rule's own. -/
def Channel.raise (e : ErrCode) (c : Channel) : Channel := { c with errCode := e }

/-! Channels -/

/-- Channel `k` of the machine, if it has one. -/
def State.chan? (s : State) (k : Nat) : Option Channel := s.chans[k]?

/-- The machine with channel `k` replaced. -/
def State.putChan (s : State) (k : Nat) (c : Channel) : State := { s with chans := s.chans.set k c }

/-- A command that may change the whole machine, on the channel whose CMD was written. -/
def State.withCur (s : State) (f : Channel → State) : Host.Outcome State Fault Refusal :=
  match s.chan? s.cur with
  | some c => .next (f c)
  | none => .fault .noChannel

/-- A command that changes only its own channel. -/
def State.onCur (s : State) (f : Channel → Channel) : Host.Outcome State Fault Refusal :=
  s.withCur fun c => s.putChan s.cur (f c)

/-! The pixel buffer (10_state.md R24) -/

/-- The canonical form of a pixel buffer of `ne` entries: every entry is listed, none beyond. -/
def Memory.wf (ne : Nat) (m : Memory) : Bool := m.length == ne

/-- `PIX[i]`, or nothing where `i >= NE` (40_pixel.md R122). -/
def Memory.read (ne : Nat) (m : Memory) (i : Nat) : Option Color := if i < ne then m[i]? else none

/-- `PIX[i] <- c` if `i < NE`, else no effect (40_pixel.md R120). -/
def Memory.write (ne : Nat) (m : Memory) (i : Nat) (c : Color) : Memory := if i < ne then m.set i c else m

/-- Every entry takes the color `c` (40_pixel.md R124, R126). -/
def Memory.fill (m : Memory) (c : Color) : Memory := m.map fun _ => c

/-- Every entry is attenuated (41_encode.md R142). -/
def Memory.attenuate (r : AttenRounding) (m : Memory) : Memory := m.map (Machine.attenuate r)

/-! The registers of a bank -/

/-- A table view: the value while the table is valid, else 0 (10_state.md R34). -/
def Table.view (t : Table) (v : Word) : Word := if t.valid then v else 0

/-- What a read of a slot of a bank returns (20_memory.md R66; 10_state.md R26 to R34). -/
def regRead (p : Params) (t : Table) (c : Channel) : Reg → Word
  | .named .cmd => 0
  | .named .status => statusWord t c
  | .named .ctrl => ctrlWord c
  | .named .clkHz => c.clkHz
  | .named .ledCount => BitVec.ofNat 32 p.ne
  | .named .pixIdx => c.pixIdx
  | .named .pixData => c.pixData.setWidth 32
  | .named .frameLen => c.frameLen
  | .named .t0Ticks => t.view (t.t0l ++ t.t0h)
  | .named .t1Ticks => t.view (t.t1l ++ t.t1h)
  | .named .trstTicks => t.view (t.trst.setWidth 32)
  | .named .tblClkHz => t.view t.clk
  | .reserved => 0

/-- What a write to a slot other than CMD does (20_memory.md R67): CTRL, CLK_HZ, PIX_IDX and PIX_DATA are stored, every
other slot ignores it (10_state.md R33). A write to CMD is a command, and is not done here. -/
def regWrite (v : Word) (c : Channel) : Reg → Channel
  | .named .ctrl => { c with attenEn := v.getLsbD 0 }
  | .named .clkHz => { c with clkHz := v }
  | .named .pixIdx => { c with pixIdx := v }
  | .named .pixData => { c with pixData := colorOfWord v }
  | .named .cmd => c
  | .named .status => c
  | .named .ledCount => c
  | .named .frameLen => c
  | .named .t0Ticks => c
  | .named .t1Ticks => c
  | .named .trstTicks => c
  | .named .tblClkHz => c
  | .reserved => c

/-! Construction and block reset -/

/-- An instance with parameters `p` has an initial state only within the constraints (00_scope.md R8). -/
def State.construct (p : Params) : Option State :=
  if p.ok then some (State.resetWith p) else none

/-- What block reset leaves of a channel: its reset value, beside the host's own data and the record of what its line has
already carried, which are no state of the block (log 8). -/
def Channel.blockReset (p : Params) (c : Channel) : Channel :=
  { Channel.reset p with
    stream := c.stream
    host := { HostAgent.reset with prog := c.host.prog, inbox := c.host.inbox } }

/-- Block reset (70_reset_and_hazards.md R260): every piece of state takes its reset value; the parameters stay. -/
def State.blockReset (s : State) : State :=
  { State.resetWith s.par with
    chans := s.chans.map (Channel.blockReset s.par)
    moves := s.moves
    count := s.count }

/-! The environment's moves -/

/-- The next move: the first one State lists, else the free value (log 2). -/
def State.nextMove (s : State) : Move :=
  match s.moves with
  | m :: _ => m
  | [] => Config.freeMove s.count

/-- The move is made: it leaves the list, and the count goes up (log 2). -/
def State.advance (s : State) : State := { s with moves := s.moves.tail, count := s.count + 1 }

/-- Host `H_k` issues its next access: it leaves the host's program, and the machine acts for channel `k` (log 5, log 7). -/
def HostAgent.issued (h : HostAgent) : HostAgent := { h with prog := h.prog.tail }

/-- See `HostAgent.issued`. -/
def Channel.issued (c : Channel) : Channel := { c with host := c.host.issued }

/-- A read returns its value to the host (20_memory.md R66; log 5). -/
def Channel.answer (v : Word) (c : Channel) : Channel :=
  { c with host := { c.host with inbox := c.host.inbox ++ [v] } }

end Sys2Proof.Machine
end

