-- ==== Sys2Proof/Machine/Control.lean ====
section
/-! DEFINITION. The control commands: NOP, CLR_STAT and the illegal words (44_control.md). -/

namespace Sys2Proof.Machine

/-- NOP: no effect (44_control.md R210). -/
def execNop (s : State) : Host.Outcome State Fault Refusal := s.withCur fun _ => s

/-- CLR_STAT (44_control.md R211). -/
def execClrStat (s : State) : Host.Outcome State Fault Refusal := s.onCur Channel.clearStatus

/-- ILL_CMD is set beside `raise Err(6)` (44_control.md R212). -/
def Channel.illegal (c : Channel) : Channel := Channel.raise .illegalCmd { c with illCmd := true }

/-- An illegal word: its bits are not looked at further (44_control.md R212). -/
def execIllegal (_word : Word) (s : State) : Host.Outcome State Fault Refusal := s.onCur Channel.illegal

end Sys2Proof.Machine
end

