-- ==== Sys2Proof/Machine/Pixel.lean ====
section
/-! DEFINITION. The pixel-buffer commands (40_pixel.md). -/

namespace Sys2Proof.Machine

/-- PIX_WR on a channel (40_pixel.md R120). -/
def Channel.pixWr (ne : Nat) (c : Channel) : Channel :=
  { c with pix := c.pix.write ne c.pixIdx.toNat c.pixData }

/-- PIX_RD on a channel (40_pixel.md R122): out of range, PIX_DATA keeps its value. -/
def Channel.pixRd (ne : Nat) (c : Channel) : Channel :=
  { c with pixData := (c.pix.read ne c.pixIdx.toNat).getD c.pixData }

/-- PIX_FILL on a channel (40_pixel.md R124). -/
def Channel.pixFill (c : Channel) : Channel := { c with pix := c.pix.fill c.pixData }

/-- PIX_CLR on a channel (40_pixel.md R126). -/
def Channel.pixClr (c : Channel) : Channel := { c with pix := c.pix.fill 0 }

/-- PIX_WR (40_pixel.md R120). -/
def execPixWr (s : State) : Host.Outcome State Fault Refusal := s.onCur (Channel.pixWr s.par.ne)

/-- PIX_RD (40_pixel.md R122). -/
def execPixRd (s : State) : Host.Outcome State Fault Refusal := s.onCur (Channel.pixRd s.par.ne)

/-- PIX_FILL (40_pixel.md R124). -/
def execPixFill (s : State) : Host.Outcome State Fault Refusal := s.onCur Channel.pixFill

/-- PIX_CLR (40_pixel.md R126). -/
def execPixClr (s : State) : Host.Outcome State Fault Refusal := s.onCur Channel.pixClr

end Sys2Proof.Machine
end

