-- ==== Sys2Proof/Machine/Table.lean ====
section
/-! DEFINITION. TBL_INIT: computing and installing the shared timing table (43_table.md). -/

namespace Sys2Proof.Machine

/-- `ticks(ns, c)` in exact arithmetic (43_table.md R192). -/
def ticks (r : TickRounding) (ns c : Nat) : Nat :=
  match r with
  | .floor => ns * c / 1000000000
  | .nearest => (ns * c + 500000000) / 1000000000

/-- A tick count lies in `1 .. TICK_MAX` (43_table.md R191). -/
def tickOk (p : Params) (t : Nat) : Bool := decide (1 ≤ t) && decide (t ≤ p.tickMax)

/-- The five tick counts of a clock rate: t0h, t0l, t1h, t1l, trst (43_table.md R191). -/
def tickList (p : Params) (c : Nat) : List Nat :=
  [p.t0hNs, p.t0lNs, p.t1hNs, p.t1lNs, p.tresetNs].map fun ns => ticks p.tickRounding ns c

/-- The table of a clock rate, with the tick counts as the fields hold them (43_table.md R191). -/
def tableOf (p : Params) (c : Word) : Table where
  valid := true
  clk := c
  t0h := BitVec.ofNat 16 (ticks p.tickRounding p.t0hNs c.toNat)
  t0l := BitVec.ofNat 16 (ticks p.tickRounding p.t0lNs c.toNat)
  t1h := BitVec.ofNat 16 (ticks p.tickRounding p.t1hNs c.toNat)
  t1l := BitVec.ofNat 16 (ticks p.tickRounding p.t1lNs c.toNat)
  trst := BitVec.ofNat 16 (ticks p.tickRounding p.tresetNs c.toNat)

/-- The computation of 43_table.md R191: NO_CLOCK, then TICK_RANGE, else the table. -/
def computeTable (p : Params) (c : Word) : Except ErrCode Table :=
  if c = 0 then .error .noClock
  else if (tickList p c.toNat).all (tickOk p) then .ok (tableOf p c)
  else .error .tickRange

/-- A second initialisation: the warning, no error code (43_table.md R190, 60_exceptions.md R233). -/
def Channel.dupInit (c : Channel) : Channel := { c with dupWarn := true }

/-- A failed initialisation: INIT_FAIL beside `raise Err(code)` (43_table.md R191). -/
def Channel.initFailed (e : ErrCode) (c : Channel) : Channel := Channel.raise e { c with initFail := true }

/-- TBL_INIT (43_table.md R190, R191): the test of `TBL.valid` and the write of `TBL` are one step (20_memory.md R73). -/
def execTblInit (s : State) : Host.Outcome State Fault Refusal :=
  s.withCur fun c =>
    if s.tbl.valid then s.putChan s.cur c.dupInit
    else
      match computeTable s.par c.clkHz with
      | .ok t => { s with tbl := t }
      | .error e => s.putChan s.cur (c.initFailed e)

end Sys2Proof.Machine
end

