-- ==== Sys2Proof/Machine/Encode.lean ====
section
/-! DEFINITION. ENCODE: attenuation and serialisation (41_encode.md), and the pulse frame (30_encoding.md R96 to R99). -/

namespace Sys2Proof.Machine

/-- `sym(0)` and `sym(1)`: a high phase, then a low phase (30_encoding.md R96). -/
def sym (t : Table) (b : Bool) : List Pulse :=
  if b then [⟨t.t1h.toNat, .high⟩, ⟨t.t1l.toNat, .low⟩] else [⟨t.t0h.toNat, .high⟩, ⟨t.t0l.toNat, .low⟩]

/-- The frame terminator, one LOW pulse (30_encoding.md R97). -/
def rst (t : Table) : Pulse := ⟨t.trst.toNat, .low⟩

/-- The bits of a byte in wire order, bit 7 first (20_memory.md R65). -/
def byteBits (b : Byte) : List Bool := [7, 6, 5, 4, 3, 2, 1, 0].map fun j => b.getLsbD j

/-- The bytes of a color in `CHANNEL_ORDER` (41_encode.md R143). -/
def wireBytes (p : Params) (px : Color) : List Byte := p.channelOrder.slots.map fun ch => byteOf ch px

/-- The 24 bits of a color in wire order (41_encode.md R143). -/
def wireBits (p : Params) (px : Color) : List Bool := (wireBytes p px).flatMap byteBits

/-- The data bits of a whole buffer in wire order: LED 0 first (41_encode.md R143). -/
def frameBits (p : Params) (en : Bool) (snap : Memory) : List Bool :=
  snap.flatMap fun c => wireBits p (sentColor p en c)

/-- FRAME: a symbol for each bit, then the terminator (30_encoding.md R98). -/
def buildFrame (p : Params) (t : Table) (en : Bool) (snap : Memory) : List Pulse :=
  (frameBits p en snap).flatMap (sym t) ++ [rst t]

/-- The bit `bit(i,s,b)` of 41_encode.md R143 for a color already attenuated: bit `b` of channel slot `s`. -/
def wireBit (p : Params) (px : Color) (s b : Nat) : Bool :=
  match p.channelOrder.slots[s]? with
  | some ch => (byteOf ch px).getLsbD b
  | none => false

/-- Where pulse `q` of a frame of `ne` LEDs comes from, computed from its position (30_encoding.md R99). -/
def pulseAt (p : Params) (t : Table) (en : Bool) (snap : Memory) (q : Nat) : Option Pulse :=
  if q = 48 * snap.length then some (rst t)
  else
    match snap[q / 48]? with
    | none => none
    | some c =>
      let s := q % 48 / 16
      let b := 7 - q % 48 % 16 / 2
      (sym t (wireBit p (sentColor p en c) s b))[q % 48 % 2]?

/-- The length of a pulse sequence in ticks (70_reset_and_hazards.md R272). -/
def pulsesTicks (f : List Pulse) : Nat := (f.map Pulse.ticks).sum

/-- ENCODE with no table: any held frame is discarded, ENC_ERR is set beside `raise Err(3)` (41_encode.md R145). -/
def Channel.encodeFailed (c : Channel) : Channel :=
  Channel.raise .encNoTable
    { c with frameValid := false, frame := [], frameClk := 0, frameLen := 0, encErr := true }

/-- ENCODE with a valid table (41_encode.md R142, R146): the frame is built from the buffer as it was, and with
`ATTEN_IN_PLACE` the buffer takes the attenuated colors. -/
def Channel.encoded (p : Params) (t : Table) (c : Channel) : Channel :=
  { c with
    pix := if c.attenEn && p.attenInPlace then c.pix.attenuate p.attenRounding else c.pix
    frame := buildFrame p t c.attenEn c.pix
    frameClk := t.clk
    frameValid := true
    frameLen := BitVec.ofNat 32 p.frameLen }

/-- ENCODE on a channel (41_encode.md R144). -/
def Channel.encode (p : Params) (t : Table) (c : Channel) : Channel :=
  if t.valid then c.clearEncErr.encoded p t else c.clearEncErr.encodeFailed

/-- ENCODE (41_encode.md R144). -/
def execEncode (s : State) : Host.Outcome State Fault Refusal := s.onCur (Channel.encode s.par s.tbl)

end Sys2Proof.Machine
end

