-- ==== Sys2Proof/Machine/Transmit.lean ====
section
/-! DEFINITION. XMIT and CYCLE (42_transmit.md R170 to R172, R178), and the transmitter agent (R173 to R175). -/

namespace Sys2Proof.Machine

/-- XMIT with no frame: XMIT_ERR beside `raise Err(4)`; the host is not held (42_transmit.md R171). -/
def Channel.noFrame (c : Channel) : Channel := Channel.raise .noFrame { c with xmitErr := true }

/-- The hand-over of the frame to the transmitter (42_transmit.md R170, R172): the frame is consumed, the host held. -/
def Channel.handOver (c : Channel) : Channel :=
  { c with
    tx := { c.tx with frame := c.frame, clk := c.frameClk, pos := 0, active := true }
    busy := true
    frameValid := false
    frame := []
    host := { c.host with held := true } }

/-- XMIT on a channel (42_transmit.md R170). -/
def Channel.xmit (c : Channel) : Channel :=
  if c.frameValid then c.clearXmitErr.handOver else c.clearXmitErr.noFrame

/-- CYCLE on a channel (42_transmit.md R178): both per-cycle flags are cleared, then ENCODE, then XMIT unless ENCODE
failed. -/
def Channel.cycle (p : Params) (t : Table) (c : Channel) : Channel :=
  let c := c.clearEncErr.clearXmitErr.encode p t
  if c.encErr then c else c.xmit

/-- XMIT (42_transmit.md R170). -/
def execXmit (s : State) : Host.Outcome State Fault Refusal := s.onCur Channel.xmit

/-- CYCLE (42_transmit.md R178). -/
def execCycle (s : State) : Host.Outcome State Fault Refusal := s.onCur (Channel.cycle s.par s.tbl)

/-! The transmitter -/

/-- `emit(t, lvl) ; LINE <- lvl`, and TX_POS goes up by one (42_transmit.md R173). -/
def Channel.emit (q : Pulse) (c : Channel) : Channel :=
  { c with
    tx := { c.tx with line := q.level, pos := c.tx.pos + 1 }
    stream := c.stream ++ [⟨q, c.tx.clk⟩] }

/-- The result step (42_transmit.md R175): the host is released, the line goes LOW; FAIL sets XMIT_ERR beside
`raise Err(5)`. -/
def Channel.finish (r : TxResult) (c : Channel) : Channel :=
  let c := { c with
    tx := { c.tx with active := false, line := .low }
    busy := false
    host := { c.host with held := false } }
  match r with
  | .ok => c
  | .fail => Channel.raise .xmitFail { c with xmitErr := true }

/-- The result a finishing step reports: FAIL where it drew FAIL, else the second draw (42_transmit.md R175). -/
def resultOf (d : Draw) (r : TxResult) : TxResult :=
  match d with
  | .cont => r
  | .fail => .fail

/-- One step of an active transmitter (42_transmit.md R173): with CONT and a pulse left it emits that pulse, else it
finishes. -/
def Channel.txStep (d : Draw) (r : TxResult) (c : Channel) : Channel :=
  match d, c.tx.frame[c.tx.pos]? with
  | .cont, some q => c.emit q
  | d, _ => c.finish (resultOf d r)

/-- A move of `TX_k`: it has a step only while TX_ACTIVE is 1 (42_transmit.md R173); else the machine stays as it is
(log 3). -/
def txMove (k : Nat) (d : Draw) (r : TxResult) (s : State) : Host.Outcome State Fault Refusal :=
  match s.chan? k with
  | some c => if c.tx.active then .next (s.putChan k (c.txStep d r)) else .next s
  | none => .next s

end Sys2Proof.Machine
end

