-- ==== Sys2Proof/Machine/Dispatch.lean ====
section
/-! DEFINITION. The command of a decoded word, on the channel whose CMD was written (30_encoding.md R91). -/

namespace Sys2Proof.Machine

def exec (i : Instr) (s : State) : Host.Outcome State Fault Refusal :=
  match i with
  | .nop => Sys2Proof.Machine.execNop s
  | .tblInit => Sys2Proof.Machine.execTblInit s
  | .pixWr => Sys2Proof.Machine.execPixWr s
  | .pixRd => Sys2Proof.Machine.execPixRd s
  | .pixFill => Sys2Proof.Machine.execPixFill s
  | .pixClr => Sys2Proof.Machine.execPixClr s
  | .encode => Sys2Proof.Machine.execEncode s
  | .xmit => Sys2Proof.Machine.execXmit s
  | .cycle => Sys2Proof.Machine.execCycle s
  | .clrStat => Sys2Proof.Machine.execClrStat s
  | .illegal w => Sys2Proof.Machine.execIllegal w s

end Sys2Proof.Machine
end

