-- ==== Sys2Proof/Machine/Bus.lean ====
section
/-! DEFINITION. The host bus (20_memory.md): which accesses are admitted, what an access does, the hosts' moves; and how a
command word is placed so that the next step runs it. -/

namespace Sys2Proof.Machine

/-- Bus admission for host `H_j` (60_exceptions.md R234 point 1): 32 bits wide and aligned (20_memory.md R62), mapped
(R61), in the host's own bank (10_state.md R21). Answers the register offset (R63). An access that is not
admitted has no step: a fault (log 4). -/
def admission (p : Params) (j : Nat) (a : Access) : Except Fault Nat :=
  if a.width ≠ .w32 then .error .wrongWidth
  else if a.addr.toNat % 4 ≠ 0 then .error .misaligned
  else if p.k * 0x40 ≤ a.addr.toNat then .error .unmapped
  else if a.addr.toNat / 0x40 ≠ j then .error .foreignBank
  else .ok (a.addr.toNat % 0x40)

/-- Host `H_k`'s next access leaves its program, and the machine acts for channel `k`. -/
def State.issue (s : State) (k : Nat) (c : Channel) : State :=
  { s with cur := k, chans := s.chans.set k c.issued }

/-- An admitted access to a slot of the current channel's bank, once issued: a read returns its value and changes nothing
else (20_memory.md R66), a write to CMD executes the command (R67, 30_encoding.md R92), another write
stores (R67). -/
def access (r : Reg) (d : Dir) (s : State) : Host.Outcome State Fault Refusal :=
  match r, d with
  | r, .read => s.onCur fun c => c.answer (regRead s.par s.tbl c r)
  | .named .cmd, .write v => exec (decodeWord v) s
  | r, .write v => s.onCur fun c => regWrite v c r

/-- A move of host `H_k`. It has no step while HELD is 1 (42_transmit.md R174) or when it has no access to issue; an access
that is not admitted is a fault; while BUSY is 1 the access is held (20_memory.md R68); else it is one atomic
step (R70). A host without a step leaves the machine as it is (log 3). -/
def hostMove (k : Nat) (s : State) : Host.Outcome State Fault Refusal :=
  match s.chan? k with
  | none => .next s
  | some c =>
    if c.host.held then .next s
    else
      match c.host.prog with
      | [] => .next s
      | a :: _ =>
        match admission s.par k a with
        | .error f => .fault f
        | .ok off => if c.busy then .next s else access (Reg.ofOffset off) a.dir (s.issue k c)

/-- One move of the environment (20_memory.md R71). -/
def runMove (m : Move) (s : State) : Host.Outcome State Fault Refusal :=
  match m with
  | .host k => hostMove k s
  | .tx k d r => txMove k d r s
  | .reset => .next s.blockReset

/-- A channel whose host issues the write of `w` to CMD next, and is not held: a transmission under way is ended as its
result step ends it (log 11). -/
def Channel.withCommand (w : Word) (c : Channel) : Channel :=
  { c with
    tx := { c.tx with active := false, line := .low }
    busy := false
    host := { c.host with
      held := false
      prog := ⟨BitVec.ofNat 32 (bankBase 0), .w32, .write w⟩ :: c.host.prog } }

/-- The machine whose very next step is host `H_0`'s write of the command word `w` to CMD (log 11). -/
def State.withCommand (s : State) (w : Word) : State :=
  { s with
    chans := s.chans.modify 0 (Channel.withCommand w)
    moves := .host 0 :: s.moves }

end Sys2Proof.Machine
end

