-- ==== Sys2Proof/Machine/Step.lean ====
section
/-! DEFINITION. One step of the machine: the next move of its environment is made (20_memory.md R71). -/

namespace Sys2Proof.Machine

/-- The agent that moves next takes its step. -/
def step (s : State) : Host.Outcome State Fault Refusal := runMove s.nextMove s.advance

/-- The state in which the next step runs the command word `w` of `nbits` bits on channel 0 (log 11). -/
def State.withFetchWord (s : State) (nbits w : Nat) : State := s.withCommand (tableWord nbits w)

end Sys2Proof.Machine
end

