-- ==== Sys2Proof/Machine/Assembler.lean ====
section
/-! DEFINITION. The host assembler of 30_encoding.md R100 to R102: program lines, pseudo-instructions, bus transactions, and
the reading of the written form. -/

namespace Sys2Proof.Machine.Asm

/-- A program line: one bus access to the bank of channel `k` (30_encoding.md R100). -/
inductive Line where
  | wr (r : RegName) (k : Nat) (value : Word)
  | rd (r : RegName) (k : Nat)
  | cmd (i : Instr) (k : Nat)
  deriving DecidableEq, Repr

/-- A pseudo-instruction (30_encoding.md R101). -/
inductive Pseudo where
  | setpix (i c : Word)
  | getpix (i : Word)
  | fill (c : Word)
  | init (f : Word)
  | frame
  | atten (on : Bool)
  deriving DecidableEq, Repr

/-- The lines a pseudo-instruction for channel `k` stands for (30_encoding.md R101). -/
def Pseudo.expand (k : Nat) : Pseudo → List Line
  | .setpix i c => [.wr .pixIdx k i, .wr .pixData k c, .cmd .pixWr k]
  | .getpix i => [.wr .pixIdx k i, .cmd .pixRd k, .rd .pixData k]
  | .fill c => [.wr .pixData k c, .cmd .pixFill k]
  | .init f => [.wr .clkHz k f, .cmd .tblInit k, .rd .status k]
  | .frame => [.cmd .cycle k, .rd .status k]
  | .atten on => [.wr .ctrl k (if on then 1 else 0)]

/-- The channel whose host issues the line. -/
def Line.channel : Line → Nat
  | .wr _ k _ => k
  | .rd _ k => k
  | .cmd _ k => k

/-- The address of a register of bank `k`: `k*0x40 + off` (30_encoding.md R102).
DESIGN CHOICE (log 21, unsafe): where that does not fit the 32-bit address, at a `k` of 2^26 or more, it is taken modulo 2^32;
the spec says nothing of such a line. -/
def regAddr (r : RegName) (k : Nat) : Word := BitVec.ofNat 32 (bankBase k + r.offset)

/-- The bus access of a line (30_encoding.md R100, R102). -/
def Line.access : Line → Access
  | .wr r k v => ⟨regAddr r k, .w32, .write v⟩
  | .rd r k => ⟨regAddr r k, .w32, .read⟩
  | .cmd i k => ⟨regAddr .cmd k, .w32, .write (encode i)⟩

/-- A bus transaction `(dir, addr, data)` (30_encoding.md R102). -/
structure Transaction where
  isWrite : Bool
  addr : Word
  data : Word
  deriving DecidableEq, Repr

/-- The transaction of an access; `returned` is the value a read returned (30_encoding.md R102). -/
def transaction (a : Access) (returned : Word) : Transaction :=
  match a.dir with
  | .write v => ⟨true, a.addr, v⟩
  | .read => ⟨false, a.addr, returned⟩

/-- A host's program: each line joins the program of the host of its channel, in order (20_memory.md R72).
DESIGN CHOICE (log 20, unsafe): a line for a bank `k >= K` is dropped. No host `H_k` exists that could issue it, and the spec
names none; its address has no step (20_memory.md R61). -/
def load (lines : List Line) (s : State) : State :=
  lines.foldl (fun s l => { s with
    chans := s.chans.modify l.channel fun c =>
      { c with host := { c.host with prog := c.host.prog ++ [l.access] } } }) s

/-! The written form (30_encoding.md R100, R101) -/

/-- The written register names (30_encoding.md R100). -/
def regNames : List (String × RegName) :=
  [("CMD", .cmd), ("STATUS", .status), ("CTRL", .ctrl), ("CLK_HZ", .clkHz), ("LED_COUNT", .ledCount),
   ("PIX_IDX", .pixIdx), ("PIX_DATA", .pixData), ("FRAME_LEN", .frameLen), ("T0_TICKS", .t0Ticks),
   ("T1_TICKS", .t1Ticks), ("TRST_TICKS", .trstTicks), ("TBL_CLK_HZ", .tblClkHz)]

/-- The written mnemonics (30_encoding.md R91). -/
def mnemonics : List (String × Instr) :=
  [("NOP", .nop), ("TBL_INIT", .tblInit), ("PIX_WR", .pixWr), ("PIX_RD", .pixRd), ("PIX_FILL", .pixFill),
   ("PIX_CLR", .pixClr), ("ENCODE", .encode), ("XMIT", .xmit), ("CYCLE", .cycle), ("CLR_STAT", .clrStat)]

/-- A decimal digit. -/
def decDigit (ch : Char) : Option Nat :=
  if '0' ≤ ch ∧ ch ≤ '9' then some (ch.toNat - '0'.toNat) else none

/-- A hex digit, in either case. -/
def hexDigit (ch : Char) : Option Nat :=
  if 'a' ≤ ch ∧ ch ≤ 'f' then some (ch.toNat - 'a'.toNat + 10)
  else if 'A' ≤ ch ∧ ch ≤ 'F' then some (ch.toNat - 'A'.toNat + 10)
  else decDigit ch

/-- The number of digits in a base, or nothing for no digit at all or a character that is none. -/
def digits (base : Nat) (digit : Char → Option Nat) : List Char → Option Nat
  | [] => none
  | cs => cs.foldl (fun n ch => (n.bind fun n => (digit ch).map fun d => base * n + d)) (some 0)

/-- A decimal or `0x` hex literal. -/
def natural : List Char → Option Nat
  | '0' :: 'x' :: cs => digits 16 hexDigit cs
  | cs => digits 10 decDigit cs

/-- A literal less than `2^32` (30_encoding.md R100). -/
def value (cs : List Char) : Option Word :=
  (natural cs).bind fun n => if n < 2 ^ 32 then some (BitVec.ofNat 32 n) else none

/-- `;` starts a comment (30_encoding.md R100). -/
def dropComment (cs : List Char) : List Char := cs.takeWhile (· ≠ ';')

/-- The words of a line: runs of characters between spaces, tabs and commas (log 17). -/
def words (cs : List Char) : List (List Char) :=
  let step := fun (ch : Char) (acc : List Char × List (List Char)) =>
    if ch = ' ' ∨ ch = '\t' ∨ ch = ',' then ([], if acc.1 = [] then acc.2 else acc.1 :: acc.2)
    else (ch :: acc.1, acc.2)
  let out := cs.foldr step ([], [])
  if out.1 = [] then out.2 else out.1 :: out.2

/-- A name with its optional `@k` suffix, 0 where it is left out (30_encoding.md R100).
DESIGN CHOICE (log 17): `k` is written in decimal digits, and a hex suffix is refused; R100 gives the two forms of a literal
for `<value>` only. -/
def suffixed (cs : List Char) : Option (List Char × Nat) :=
  let name := cs.takeWhile (· ≠ '@')
  match cs.dropWhile (· ≠ '@') with
  | [] => some (name, 0)
  | _ :: k => (digits 10 decDigit k).map fun k => (name, k)

/-- The entry of a written name. -/
def lookup {α : Type} (table : List (String × α)) (name : List Char) : Option α :=
  (table.find? fun e => e.1.toList == name).map Prod.snd

/-- The lines one written line stands for; an empty or comment line stands for none, and nothing is answered where
the text is no line of R100 or R101. A `-> value` annotation of a read has no effect. -/
def readLine (text : String) : Option (List Line) :=
  match words (dropComment text.toList) with
  | [] => some []
  | op :: args =>
    (suffixed op).bind fun (name, k) =>
      match String.ofList name, args with
      | "WR", [r, v] =>
        if k = 0 ∧ name = op then
          (suffixed r).bind fun (r, k) => (lookup regNames r).bind fun r => (value v).map fun v => [.wr r k v]
        else none
      | "RD", [r] =>
        if name = op then (suffixed r).bind fun (r, k) => (lookup regNames r).map fun r => [.rd r k] else none
      | "RD", [r, ['-', '>'], v] =>
        if name = op then
          (suffixed r).bind fun (r, k) => (lookup regNames r).bind fun r => (value v).map fun _ => [.rd r k]
        else none
      | "CMD", [m] =>
        if name = op then (suffixed m).bind fun (m, k) => (lookup mnemonics m).map fun i => [.cmd i k] else none
      | "SETPIX", [i, c] => (value i).bind fun i => (value c).map fun c => (Pseudo.setpix i c).expand k
      | "GETPIX", [i] => (value i).map fun i => (Pseudo.getpix i).expand k
      | "FILL", [c] => (value c).map fun c => (Pseudo.fill c).expand k
      | "INIT", [f] => (value f).map fun f => (Pseudo.init f).expand k
      | "FRAME", [] => some (Pseudo.frame.expand k)
      | "ATTEN", [w] =>
        match String.ofList w with
        | "on" => some ((Pseudo.atten true).expand k)
        | "off" => some ((Pseudo.atten false).expand k)
        | _ => none
      | _, _ => none

/-- A written program: every line's lines in order. -/
def readProgram (texts : List String) : Option (List Line) :=
  texts.foldr (fun t acc => (readLine t).bind fun l => acc.map fun rest => l ++ rest) (some [])

end Sys2Proof.Machine.Asm
end

