-- ==== Sys2Proof/Machine/Fairness.lean ====
section
/-! DEFINITION. Agents and their enabled steps (10_state.md R20, 20_memory.md R71), executions, and the weak fairness that
the model assumes of them (42_transmit.md R180). -/

namespace Sys2Proof.Machine

/-- An agent: host `H_k` or transmitter `TX_k` (10_state.md R20). -/
inductive Agent where
  | host (k : Nat)
  | tx (k : Nat)
  deriving DecidableEq, Repr

/-- The agent whose step a move is; a block reset is no agent's (log 12). -/
def Move.agent : Move → Option Agent
  | .host k => some (.host k)
  | .tx k _ _ => some (.tx k)
  | .reset => none

/-- An agent has a step. A host: it is not held (42_transmit.md R174), its bank is not busy (20_memory.md R68), and it has an
admitted access to issue (R61, R62, 10_state.md R21). A transmitter: TX_ACTIVE is 1 (42_transmit.md R173). -/
def State.enabled (s : State) : Agent → Prop
  | .host k => ∃ c a rest off, s.chan? k = some c ∧ c.host.held = false ∧ c.busy = false ∧
      c.host.prog = a :: rest ∧ admission s.par k a = .ok off
  | .tx k => ∃ c, s.chan? k = some c ∧ c.tx.active = true

/-- An execution: a state for each moment, and the move that makes each state the next one (20_memory.md R71). The runs of
`step` are the executions whose moves are the states' own, `(e n).nextMove`. -/
def IsExecution (e : Nat → State) (moves : Nat → Move) : Prop :=
  ∀ n, runMove (moves n) (e n).advance = .next (e (n + 1))

/-- Weak fairness (42_transmit.md R180): an agent with a step enabled forever eventually takes it. The executions of the model
are the weakly fair ones. -/
def WeaklyFair (e : Nat → State) (moves : Nat → Move) : Prop :=
  ∀ (a : Agent) (n : Nat), (∀ m, n ≤ m → (e m).enabled a) → ∃ m, n ≤ m ∧ Move.agent (moves m) = some a

end Sys2Proof.Machine
end

