-- ==== Sys2Proof/Safety.lean ====
section
/-! DEFINITION. What a sound state of the machine is, and what hosts that keep to the bus rules are, in the terms the
statements use. -/

namespace Sys2Proof.Machine

/-- A table that is either untouched since reset (10_state.md R22), or the one TBL_INIT computes from its own clock rate
(43_table.md R191). -/
def Table.Sound (p : Params) (t : Table) : Prop :=
  (t.valid = false → t = Table.reset) ∧ (t.valid = true → computeTable p t.clk = .ok t)

/-- `ticks` is in `1 .. TICK_MAX` (00_scope.md R12). -/
def Pulse.InRange (p : Params) (q : Pulse) : Prop := 1 ≤ q.ticks ∧ q.ticks ≤ p.tickMax

/-- The events that the first `n` pulses of a frame put on the line (42_transmit.md R173). -/
def Tx.sent (x : Tx) : List Emission := (x.frame.take x.pos).map fun q => ⟨q, x.clk⟩

/-- The level the line has while a frame is sent: that of the last pulse sent, LOW before the first
(42_transmit.md R173, R176). -/
def Tx.driven (x : Tx) : Level := ((x.frame.take x.pos).getLast?.map Pulse.level).getD .low

/-- What every reachable channel keeps. -/
structure Channel.Sound (p : Params) (t : Table) (c : Channel) : Prop where
  /-- The buffer has NE entries, always (10_state.md R24). -/
  pixLength : Memory.wf p.ne c.pix = true
  /-- BUSY is 1 exactly while the transmitter is active (42_transmit.md R170, R175). -/
  busyActive : c.busy = c.tx.active
  /-- The host is held exactly while the transmitter is active (42_transmit.md R174). -/
  heldActive : c.host.held = c.tx.active
  /-- A held frame was built from the table in force (41_encode.md R146). -/
  frameHeld : c.frameValid = true →
    t.valid = true ∧ c.frameClk = t.clk ∧ c.frame.length = p.frameLen ∧ c.frameLen.toNat = p.frameLen
  /-- With FRAME_VALID = 0 there is no frame (41_encode.md R145, 42_transmit.md R172). -/
  noFrame : c.frameValid = false → c.frame = []
  /-- FRAME_LEN is 0 or `48*NE + 1` (10_state.md R32). -/
  frameLenRange : c.frameLen = 0 ∨ (t.valid = true ∧ c.frameLen.toNat = p.frameLen)
  /-- After a failed ENCODE no frame is left (41_encode.md R145). -/
  encErrNoFrame : c.encErr = true → c.frameValid = false ∧ c.frameLen = 0
  /-- DUP_WARN needs a valid table (43_table.md R190; 90_conflicts.md C10). -/
  dupWarnValid : c.dupWarn = true → t.valid = true
  /-- An idle line is LOW (42_transmit.md R176). -/
  idleLow : c.tx.active = false → c.tx.line = .low
  /-- An active transmitter holds a whole frame of the table in force (42_transmit.md R172). -/
  txFrame : c.tx.active = true → t.valid = true ∧ c.tx.clk = t.clk ∧ c.tx.frame.length = p.frameLen
  /-- TX_POS stops at the frame length (10_state.md R37). -/
  txPos : c.tx.pos ≤ c.tx.frame.length
  /-- What an active transmitter has sent is the newest part of the line's stream (42_transmit.md R173). -/
  txSent : c.tx.active = true → c.tx.sent <:+ c.stream
  /-- An active transmitter drives the level of its last pulse (42_transmit.md R173). -/
  txDriven : c.tx.active = true → c.tx.line = c.tx.driven
  /-- Every pulse the channel holds has a tick count in `1 .. TICK_MAX` (00_scope.md R12). -/
  pulsesInRange : ∀ q ∈ c.frame ++ c.tx.frame ++ c.stream.map Emission.pulse, q.InRange p

/-- What every reachable state of a legally built instance keeps. -/
structure State.Sound (s : State) : Prop where
  /-- The parameters keep the constraints (00_scope.md R8). -/
  parOk : s.par.ok = true
  /-- There are `K` channels (10_state.md R20). -/
  channels : s.chans.length = s.par.k
  /-- The table is untouched or computed (43_table.md R191). -/
  table : s.tbl.Sound s.par
  /-- Every channel is sound. -/
  each : ∀ c ∈ s.chans, c.Sound s.par s.tbl

/-- Every access the hosts have still to issue is one the bus admits (20_memory.md R61, R62; 10_state.md R21). -/
def State.ProgramsAdmitted (s : State) : Prop :=
  ∀ k c, s.chan? k = some c → ∀ a ∈ c.host.prog, ∃ off, admission s.par k a = .ok off

/-- A move of the transmitter of channel `k`. -/
def Move.isTxOf (k : Nat) : Move → Bool
  | .tx j _ _ => j == k
  | .host _ => false
  | .reset => false

end Sys2Proof.Machine
end

