-- ==== Sys2Proof/Certificates/Slice0/Obligations.lean ====
section
/-! DEFINITION. The statements about this model, from the numbered rules of spec/. In every statement about a command, `s`
is the state in which the command executes, `s.cur` the channel whose CMD was written, and `c` that channel. -/

open Sys2Proof Sys2Proof.Machine

/-! Encodings -/

/-- 30_encoding.md R92, R94; 20_memory.md R64: decoding what the encoder wrote gives the command back, from the word and
from its bytes, and takes exactly one word. -/
def Obligations.DecodeOfEncodeIsTheCommand : Prop :=
  ∀ (i : Instr) (rest : List Byte), i.wf = true →
    decodeWord (encode i) = i ∧ decodeBytes (encodeBytes i ++ rest) = .ok (i, rest)

/-- 30_encoding.md R92: a word with bits 31:4 not 0, or with `op >= 0xA`, is illegal and kept whole; every other word is the
command its `op` names in R91. Encoding the decoded command gives the word back. -/
def Obligations.EveryWordIsOneCommandOrIllegal : Prop :=
  ∀ w : Word,
    let op := (w.extractLsb' 0 4).toNat
    let bad := w.extractLsb' 4 28 ≠ 0 ∨ 0xA ≤ op
    (bad → decodeWord w = .illegal w) ∧
    (¬ bad →
      [Instr.nop, .tblInit, .pixWr, .pixRd, .pixFill, .pixClr, .encode, .xmit, .cycle, .clrStat][op]?
        = some (decodeWord w)) ∧
    encode (decodeWord w) = w ∧ (decodeWord w).wf = true

/-- 30_encoding.md R91 and the table's note "Match rows in order": the decoder reads spec/opcode_table.json. -/
def Obligations.DecoderReadsTheOpcodeTable : Prop :=
  ∀ w : Word, ∃ r, tableRow w = some r ∧ decodeWord w = r.decode w

/-- 30_encoding.md R91, R95: words written out from the spec's encodings. -/
def Obligations.WrittenWordsDecode : Prop :=
  decodeWord 0b00000000000000000000000000000001 = .tblInit ∧
  decodeWord 0b00000000000000000000000000000011 = .pixRd ∧
  decodeWord 0b00000000000000000000000000000110 = .encode ∧
  decodeWord 0b00000000000000000000000000001000 = .cycle ∧
  decodeWord 0b00000000000000000000000000001001 = .clrStat ∧
  decodeWord 0b00000000000000000000000000010001 = .illegal 0x11

/-- 20_memory.md R64: byte lane `j` carries bits `8j+7 : 8j`, and the four lanes are the word. -/
def Obligations.ByteLanesAreLittleEndian : Prop :=
  ∀ v : Word,
    (∀ j b, j < 4 → b < 8 → (byteLane v j).getLsbD b = v.getLsbD (8 * j + b)) ∧
    wordBytes v = [byteLane v 0, byteLane v 1, byteLane v 2, byteLane v 3] ∧
    wordOfBytes (byteLane v 0) (byteLane v 1) (byteLane v 2) (byteLane v 3) = v

/-! Reset -/

/-- 70_reset_and_hazards.md R261: every value of its table, for every choice of parameters and every channel; LED_COUNT is a
32-bit register, so that it reads NE is said for an NE below 2^32, as the constraints of 00_scope.md R8 have it. -/
def Obligations.ResetLeavesTheListedValues : Prop :=
  ∀ (p : Params) (k : Nat), k < p.k →
    (State.resetWith p).tbl = ⟨false, 0, 0, 0, 0, 0, 0⟩ ∧
    ∃ c, (State.resetWith p).chan? k = some c ∧
      c.pix.length = p.ne ∧ (∀ i, i < p.ne → c.pix[i]? = some 0) ∧
      (let rd := fun r => regRead p (State.resetWith p).tbl c (.named r)
       rd .cmd = 0 ∧ rd .status = 0 ∧ rd .ctrl = 1 ∧ rd .clkHz = 0 ∧ (p.ne < 2 ^ 32 → (rd .ledCount).toNat = p.ne) ∧
       rd .pixIdx = 0 ∧ rd .pixData = 0 ∧ rd .frameLen = 0 ∧ rd .t0Ticks = 0 ∧ rd .t1Ticks = 0 ∧
       rd .trstTicks = 0 ∧ rd .tblClkHz = 0) ∧
      c.frame = [] ∧ c.frameClk = 0 ∧
      c.tx.active = false ∧ c.tx.frame = [] ∧ c.tx.clk = 0 ∧ c.tx.pos = 0 ∧ c.tx.line = .low ∧
      c.host.held = false

/-- 00_scope.md R8: an instance has an initial state exactly within the constraints, and it is the reset state. That the
range R6 gives `TICK_MAX`, which R8 does not list, is one of these constraints is the model's choice (log 19). -/
def Obligations.ConstructionNeedsTheConstraints : Prop :=
  ∀ p : Params,
    (State.construct p = none ↔
      ¬ ((1 ≤ p.t0hNs ∧ p.t0hNs ≤ 999) ∧ (1 ≤ p.t0lNs ∧ p.t0lNs ≤ 999) ∧ (1 ≤ p.t1hNs ∧ p.t1hNs ≤ 999) ∧
         (1 ≤ p.t1lNs ∧ p.t1lNs ≤ 999) ∧ (10000 ≤ p.tresetNs ∧ p.tresetNs ≤ 99999) ∧ p.t0hNs < p.t1hNs ∧
         (1 ≤ p.k ∧ p.k ≤ 64) ∧ 48 * p.ne + 1 < 2 ^ 32 ∧ (1 ≤ p.tickMax ∧ p.tickMax < 2 ^ 16))) ∧
    ∀ s, State.construct p = some s → s = State.resetWith p

/-- 70_reset_and_hazards.md R260 (its moment and what it keeps of the hosts' own data are the model's, log 8): after a
block reset the table and every channel read as at reset, the parameters stay. -/
def Obligations.BlockResetRestoresEverything : Prop :=
  ∀ s : State, s.nextMove = .reset →
    ∃ t, step s = .next t ∧ t.par = s.par ∧ t.tbl = Table.reset ∧
      ∀ k c, s.chan? k = some c →
        t.chan? k = some { Channel.reset s.par with
          stream := c.stream
          host := { held := false, prog := c.host.prog, inbox := c.host.inbox } }

/-! The commands: what each one does -/

/-- 44_control.md R210. -/
def Obligations.NopChangesNothing : Prop :=
  decodeWord 0x00000000 = .nop ∧
  ∀ (s : State) (c : Channel), s.chan? s.cur = some c → exec .nop s = .next s

/-- 44_control.md R211: the six flags are cleared, nothing else changes, and STATUS keeps only TBL_VALID, FRAME_VALID and
BUSY. -/
def Obligations.ClrStatClearsBits3To11 : Prop :=
  decodeWord 0x00000009 = .clrStat ∧
  ∀ (s : State) (c : Channel), s.chan? s.cur = some c →
    let d := { c with
      dupWarn := false, initFail := false, encErr := false, xmitErr := false, illCmd := false, errCode := .none }
    exec .clrStat s = .next (s.putChan s.cur d) ∧ statusWord s.tbl d = statusWord s.tbl c &&& 0x7

/-- 44_control.md R212: an illegal word sets ILL_CMD and code 6, and does nothing else; its low bits are not executed. -/
def Obligations.IllegalWordIsOnlyRecorded : Prop :=
  ∀ (s : State) (c : Channel) (w : Word), s.chan? s.cur = some c →
    (w.extractLsb' 4 28 ≠ 0 ∨ 0xA ≤ (w.extractLsb' 0 4).toNat) →
    decodeWord w = .illegal w ∧
    exec (.illegal w) s = .next (s.putChan s.cur { c with illCmd := true, errCode := .illegalCmd })

/-- 40_pixel.md R120: the pixel at PIX_IDX, and no other, takes PIX_DATA; an index `>= NE` has no effect. -/
def Obligations.PixWrWritesOnePixel : Prop :=
  decodeWord 0x00000002 = .pixWr ∧
  ∀ (s : State) (c : Channel), s.chan? s.cur = some c → c.pix.length = s.par.ne →
    ∃ m : Memory, exec .pixWr s = .next (s.putChan s.cur { c with pix := m }) ∧ m.length = s.par.ne ∧
      (∀ i, i < s.par.ne → m[i]? = if i = c.pixIdx.toNat then some c.pixData else c.pix[i]?) ∧
      (s.par.ne ≤ c.pixIdx.toNat → m = c.pix)

/-- 40_pixel.md R122: PIX_DATA takes the pixel at PIX_IDX; an index `>= NE` has no effect. -/
def Obligations.PixRdReadsOnePixel : Prop :=
  decodeWord 0x00000003 = .pixRd ∧
  ∀ (s : State) (c : Channel), s.chan? s.cur = some c → c.pix.length = s.par.ne →
    ∃ d, exec .pixRd s = .next (s.putChan s.cur { c with pixData := d }) ∧
      (c.pixIdx.toNat < s.par.ne → c.pix[c.pixIdx.toNat]? = some d) ∧
      (s.par.ne ≤ c.pixIdx.toNat → d = c.pixData)

/-- 40_pixel.md R124: every pixel takes PIX_DATA. -/
def Obligations.PixFillSetsEveryPixel : Prop :=
  decodeWord 0x00000004 = .pixFill ∧
  ∀ (s : State) (c : Channel), s.chan? s.cur = some c → c.pix.length = s.par.ne →
    exec .pixFill s = .next (s.putChan s.cur { c with pix := List.replicate s.par.ne c.pixData })

/-- 40_pixel.md R126: every pixel goes black, and the buffer equals its reset state. -/
def Obligations.PixClrRestoresTheBlackBuffer : Prop :=
  decodeWord 0x00000005 = .pixClr ∧
  ∀ (s : State) (c : Channel), s.chan? s.cur = some c → c.pix.length = s.par.ne →
    exec .pixClr s = .next (s.putChan s.cur { c with pix := Memory.reset s.par.ne }) ∧
    ∀ i, i < s.par.ne → (Memory.reset s.par.ne)[i]? = some 0

/-- 43_table.md R190, R191, R192: TBL_INIT on a valid table sets DUP_WARN only; else CLK_HZ = 0 is NO_CLOCK; else a tick
count that is 0 or above TICK_MAX is TICK_RANGE; else the whole table is installed and no flag changes. -/
def Obligations.TblInitInstallsOnceOrRecordsTheError : Prop :=
  decodeWord 0x00000001 = .tblInit ∧
  ∀ (s : State) (c : Channel), s.chan? s.cur = some c → s.par.tickMax < 2 ^ 16 →
    let tk := fun ns =>
      match s.par.tickRounding with
      | .floor => (ns * c.clkHz.toNat) / 1000000000
      | .nearest => (ns * c.clkHz.toNat + 500000000) / 1000000000
    let bad := ∃ ns ∈ [s.par.t0hNs, s.par.t0lNs, s.par.t1hNs, s.par.t1lNs, s.par.tresetNs],
      tk ns = 0 ∨ s.par.tickMax < tk ns
    (s.tbl.valid = true → exec .tblInit s = .next (s.putChan s.cur { c with dupWarn := true })) ∧
    (s.tbl.valid = false → c.clkHz = 0 →
      exec .tblInit s = .next (s.putChan s.cur { c with initFail := true, errCode := .noClock })) ∧
    (s.tbl.valid = false → c.clkHz ≠ 0 → bad →
      exec .tblInit s = .next (s.putChan s.cur { c with initFail := true, errCode := .tickRange })) ∧
    (s.tbl.valid = false → c.clkHz ≠ 0 → ¬ bad →
      ∃ t, exec .tblInit s = .next { s with tbl := t } ∧ t.valid = true ∧ t.clk = c.clkHz ∧
        t.t0h.toNat = tk s.par.t0hNs ∧ t.t0l.toNat = tk s.par.t0lNs ∧ t.t1h.toNat = tk s.par.t1hNs ∧
        t.t1l.toNat = tk s.par.t1lNs ∧ t.trst.toNat = tk s.par.tresetNs)

/-- 41_encode.md R145: ENCODE with no table discards any held frame and records ENC_NO_TABLE; the pixels stay. -/
def Obligations.EncodeWithoutTableFails : Prop :=
  ∀ (s : State) (c : Channel), s.chan? s.cur = some c → s.tbl.valid = false →
    exec .encode s = .next (s.putChan s.cur { c with
      frameValid := false, frame := [], frameClk := 0, frameLen := 0, encErr := true, errCode := .encNoTable })

/-- 41_encode.md R142, R146: ENCODE with a valid table leaves the frame of the buffer as it was, FRAME_CLK, FRAME_VALID,
FRAME_LEN and ENC_ERR, keeps ERR_CODE, and rewrites the buffer only with ATTEN_EN and ATTEN_IN_PLACE. -/
def Obligations.EncodeWithTableBuildsTheFrame : Prop :=
  ∀ (s : State) (c : Channel), s.chan? s.cur = some c → s.tbl.valid = true →
    48 * s.par.ne + 1 < 2 ^ 32 →
    ∃ (m : Memory) (n : Word), exec .encode s = .next (s.putChan s.cur { c with
        encErr := false, pix := m, frame := buildFrame s.par s.tbl c.attenEn c.pix, frameClk := s.tbl.clk
        frameValid := true, frameLen := n }) ∧
      n.toNat = 48 * s.par.ne + 1 ∧ m.length = c.pix.length ∧
      ∀ (i : Nat) (px : Color), c.pix[i]? = some px →
        m[i]? = some (if c.attenEn = true ∧ s.par.attenInPlace = true then attenuate s.par.attenRounding px else px)

/-- 42_transmit.md R171: XMIT with no frame records NO_FRAME, holds nobody and does not touch the transmitter. -/
def Obligations.XmitWithoutFrameFails : Prop :=
  ∀ (s : State) (c : Channel), s.chan? s.cur = some c → c.frameValid = false →
    exec .xmit s = .next (s.putChan s.cur { c with xmitErr := true, errCode := .noFrame })

/-- 42_transmit.md R172 and the pseudocode of R170: XMIT hands the frame and its clock over, consumes the frame, sets BUSY
and holds the host; FRAME_LEN, ENC_ERR and the pixels stay. -/
def Obligations.XmitHandsTheFrameOver : Prop :=
  ∀ (s : State) (c : Channel), s.chan? s.cur = some c → c.frameValid = true →
    exec .xmit s = .next (s.putChan s.cur { c with
      xmitErr := false, busy := true, frameValid := false, frame := []
      tx := { active := true, frame := c.frame, clk := c.frameClk, pos := 0, line := c.tx.line }
      host := { c.host with held := true } })

/-- 42_transmit.md R178: CYCLE with no table clears XMIT_ERR, fails as ENCODE does, hands nothing over and holds nobody. -/
def Obligations.CycleWithoutTableFails : Prop :=
  ∀ (s : State) (c : Channel), s.chan? s.cur = some c → s.tbl.valid = false →
    exec .cycle s = .next (s.putChan s.cur { c with
      xmitErr := false, frameValid := false, frame := [], frameClk := 0, frameLen := 0, encErr := true
      errCode := .encNoTable })

/-- 42_transmit.md R178: CYCLE with a valid table encodes the buffer afresh and hands that frame over in the same step; a
frame held before is never emitted. FRAME_LEN is said within the bound of 00_scope.md R8. -/
def Obligations.CycleEncodesAndHandsOver : Prop :=
  ∀ (s : State) (c : Channel), s.chan? s.cur = some c → s.tbl.valid = true →
    ∃ (m : Memory) (n : Word), exec .cycle s = .next (s.putChan s.cur { c with
        encErr := false, xmitErr := false, busy := true, frameValid := false, frame := [], frameClk := s.tbl.clk
        frameLen := n, pix := m
        tx := { active := true, frame := buildFrame s.par s.tbl c.attenEn c.pix, clk := s.tbl.clk, pos := 0
                line := c.tx.line }
        host := { c.host with held := true } }) ∧
      (48 * s.par.ne + 1 < 2 ^ 32 → n.toNat = 48 * s.par.ne + 1) ∧ m.length = c.pix.length ∧
      ∀ (i : Nat) (px : Color), c.pix[i]? = some px →
        m[i]? = some (if c.attenEn = true ∧ s.par.attenInPlace = true then attenuate s.par.attenRounding px else px)

/-- 42_transmit.md R178 ("perform ENCODE ... perform XMIT"): where the table is valid, CYCLE is ENCODE and then XMIT. -/
def Obligations.CycleIsEncodeThenXmit : Prop :=
  ∀ (s t : State), s.tbl.valid = true → exec .encode s = .next t → exec .cycle s = exec .xmit t

/-! Frames: what a command leaves unchanged -/

/-- The commands that touch only STATUS flags of the bank, or the table (44_control.md R210 to R212, 43_table.md R190):
every register, the pixels, the frame, the transmitter, the line and the host stay, and so do FRAME_VALID, BUSY and
the per-cycle flags (which CLR_STAT clears). -/
def Obligations.StatusCommandsFrame : Prop :=
  ∀ (i : Instr) (s t : State) (c : Channel), s.chan? s.cur = some c → exec i s = .next t →
    (i = .nop ∨ i = .clrStat ∨ i = .tblInit ∨ ∃ w, i = .illegal w) →
    ∃ d, t.chan? s.cur = some d ∧
      d.attenEn = c.attenEn ∧ d.clkHz = c.clkHz ∧ d.pixIdx = c.pixIdx ∧ d.pixData = c.pixData ∧
      d.frameLen = c.frameLen ∧ d.frameValid = c.frameValid ∧ d.busy = c.busy ∧
      (∀ a, Memory.read t.par.ne d.pix a = Memory.read s.par.ne c.pix a) ∧ d.pix = c.pix ∧
      d.frame = c.frame ∧ d.frameClk = c.frameClk ∧ d.tx = c.tx ∧ d.stream = c.stream ∧ d.host = c.host ∧
      (i ≠ .clrStat → d.encErr = c.encErr ∧ d.xmitErr = c.xmitErr) ∧
      (i ≠ .clrStat → i ≠ .tblInit → d.dupWarn = c.dupWarn ∧ d.initFail = c.initFail) ∧
      (i = .nop ∨ i = .tblInit → d.illCmd = c.illCmd) ∧
      (i ≠ .tblInit → t.tbl = s.tbl)

/-- 40_pixel.md R120 to R126: a pixel command leaves STATUS, every register but PIX_DATA (which only PIX_RD writes), the
frame, the transmitter, the line, the host and the table; PIX_RD leaves every pixel, PIX_WR every pixel but the one
at PIX_IDX. -/
def Obligations.PixelCommandsFrame : Prop :=
  ∀ (i : Instr) (s t : State) (c : Channel), s.chan? s.cur = some c → exec i s = .next t →
    (i = .pixWr ∨ i = .pixRd ∨ i = .pixFill ∨ i = .pixClr) →
    t.tbl = s.tbl ∧
    ∃ d, t.chan? s.cur = some d ∧
      d.attenEn = c.attenEn ∧ d.clkHz = c.clkHz ∧ d.pixIdx = c.pixIdx ∧ d.frameLen = c.frameLen ∧
      (i ≠ .pixRd → d.pixData = c.pixData) ∧
      statusWord t.tbl d = statusWord s.tbl c ∧
      d.frame = c.frame ∧ d.frameClk = c.frameClk ∧ d.tx = c.tx ∧ d.stream = c.stream ∧ d.host = c.host ∧
      (i = .pixRd → d.pix = c.pix) ∧
      (i = .pixWr → ∀ a, a ≠ c.pixIdx.toNat → Memory.read t.par.ne d.pix a = Memory.read s.par.ne c.pix a)

/-- 41_encode.md R144, 42_transmit.md R170, R178: ENCODE, XMIT and CYCLE leave CTRL, CLK_HZ, PIX_IDX, PIX_DATA, DUP_WARN,
INIT_FAIL, ILL_CMD, what the line has carried, the host's program and inbox, and the table; XMIT leaves every pixel
and FRAME_LEN and ENC_ERR; ENCODE leaves XMIT_ERR, BUSY, the transmitter and the host; and no pixel changes unless the
table is valid, ATTEN_EN is 1 and ATTEN_IN_PLACE is set. -/
def Obligations.EncodeAndTransmitFrame : Prop :=
  ∀ (i : Instr) (s t : State) (c : Channel), s.chan? s.cur = some c → exec i s = .next t →
    (i = .encode ∨ i = .xmit ∨ i = .cycle) →
    t.tbl = s.tbl ∧
    ∃ d, t.chan? s.cur = some d ∧
      d.attenEn = c.attenEn ∧ d.clkHz = c.clkHz ∧ d.pixIdx = c.pixIdx ∧ d.pixData = c.pixData ∧
      d.dupWarn = c.dupWarn ∧ d.initFail = c.initFail ∧ d.illCmd = c.illCmd ∧ d.stream = c.stream ∧
      d.host.prog = c.host.prog ∧ d.host.inbox = c.host.inbox ∧ d.tx.line = c.tx.line ∧
      (i = .xmit → d.frameLen = c.frameLen ∧ d.encErr = c.encErr ∧ d.frameClk = c.frameClk) ∧
      (i = .encode → d.xmitErr = c.xmitErr ∧ d.busy = c.busy ∧ d.tx = c.tx ∧ d.host = c.host) ∧
      (i = .xmit ∨ s.tbl.valid = false ∨ c.attenEn = false ∨ s.par.attenInPlace = false →
        ∀ a, Memory.read t.par.ne d.pix a = Memory.read s.par.ne c.pix a)

/-- 60_exceptions.md R242: a command leaves every other channel as it is, and the parameters; the only thing of another
channel it can reach is the shared table, and only TBL_INIT on an invalid table changes that. -/
def Obligations.CommandReachesOnlyItsChannel : Prop :=
  ∀ (i : Instr) (s t : State), exec i s = .next t →
    t.par = s.par ∧ t.cur = s.cur ∧ t.moves = s.moves ∧ t.count = s.count ∧ t.chans.length = s.chans.length ∧
    (∀ j, j ≠ s.cur → t.chan? j = s.chan? j) ∧
    (t.tbl ≠ s.tbl → i = .tblInit ∧ s.tbl.valid = false)

/-- 60_exceptions.md R231, R230: what ERR_CODE is after each command. A command that meets an error leaves that error's code,
whatever the code was before, and its flag is then set; a command that meets none keeps the code; CLR_STAT makes it 0.
(The transmitter's error, code 5, is in TransmitterReportsItsResult.) -/
def Obligations.ErrCodeIsTheLatestError : Prop :=
  ∀ (i : Instr) (s t : State) (c d : Channel), exec i s = .next t → s.chan? s.cur = some c → t.chan? s.cur = some d →
    d.errCode =
      (match i with
       | .tblInit =>
         if s.tbl.valid = true then c.errCode
         else if c.clkHz = 0 then .noClock
         else if ∀ n ∈ tickList s.par c.clkHz.toNat, 1 ≤ n ∧ n ≤ s.par.tickMax then c.errCode
         else .tickRange
       | .encode => if s.tbl.valid = true then c.errCode else .encNoTable
       | .cycle => if s.tbl.valid = true then c.errCode else .encNoTable
       | .xmit => if c.frameValid = true then c.errCode else .noFrame
       | .illegal _ => .illegalCmd
       | .clrStat => .none
       | .nop => c.errCode
       | .pixWr => c.errCode
       | .pixRd => c.errCode
       | .pixFill => c.errCode
       | .pixClr => c.errCode) ∧
    (i = .tblInit → s.tbl.valid = false →
      (c.clkHz = 0 ∨ ∃ n ∈ tickList s.par c.clkHz.toNat, n = 0 ∨ s.par.tickMax < n) → d.initFail = true) ∧
    (i = .encode ∨ i = .cycle → s.tbl.valid = false → d.encErr = true) ∧
    (i = .xmit → c.frameValid = false → d.xmitErr = true) ∧
    ∀ w, i = .illegal w → d.illCmd = true

/-! Attenuation and the pulse frame -/

/-- 41_encode.md R141, R148: `half` by its two formulas, the laws of `half`, and the attenuation of a color, `half` of each of
its three channels in the channel's own place. -/
def Obligations.HalfLaws : Prop :=
  (∀ v, (half .halfUp v).toNat = (v.toNat + 1) / 2 ∧ (half .floor v).toNat = v.toNat / 2) ∧
  (∀ r (c : Color),
    (attenuate r c).extractLsb' 16 8 = half r (c.extractLsb' 16 8) ∧
    (attenuate r c).extractLsb' 8 8 = half r (c.extractLsb' 8 8) ∧
    (attenuate r c).extractLsb' 0 8 = half r (c.extractLsb' 0 8)) ∧
  (∀ r v, (half r v).toNat ≤ 128) ∧
  (∀ r v, (half r v).toNat ≤ v.toNat) ∧
  (∀ r u v, u.toNat ≤ v.toNat → (half r u).toNat ≤ (half r v).toNat) ∧
  (∀ r, half r 0 = 0) ∧
  (∀ r v, (half r v).toNat = v.toNat / 2 + (if r = .halfUp ∧ v.toNat % 2 = 1 then 1 else 0)) ∧
  half .halfUp 255 = 0x80 ∧ half .floor 255 = 0x7F ∧ half .halfUp 1 = 1 ∧ half .floor 1 = 0

/-- 70_reset_and_hazards.md R269: halved again and again, a channel value reaches 0 after at most 8 encodes under FLOOR;
under HALF_UP a value that is not 0 falls to 1 and stays there. -/
def Obligations.RepeatedHalvingDecays : Prop :=
  ∀ (v : Byte) (n : Nat), 8 ≤ n →
    (half .floor)^[n] v = 0 ∧ (v ≠ 0 → (half .halfUp)^[n] v = 1)

/-- 30_encoding.md R98, R99: a frame has `48*NE + 1` pulses, and pulse `q` is the one its position says. -/
def Obligations.PulseIsWhereItsPositionSays : Prop :=
  ∀ (p : Params) (t : Table) (en : Bool) (snap : Memory),
    (buildFrame p t en snap).length = 48 * snap.length + 1 ∧
    ∀ q, q ≤ 48 * snap.length →
      (buildFrame p t en snap)[q]? = pulseAt p t en snap q ∧ (pulseAt p t en snap q).isSome = true

/-- 30_encoding.md R96, R97, R99 and 41_encode.md R143, written out: the two pulses of bit `b` of channel slot `s` of LED
`i`, and the reset pulse at the end of every frame; with the three slots of each of the six CHANNEL_ORDERs (00_scope.md
R6 P3: a permutation of (R,G,B)). -/
def Obligations.WireOrderIsLedSlotBitPhase : Prop :=
  (ChannelOrder.slots .rgb = [.red, .green, .blue] ∧ ChannelOrder.slots .rbg = [.red, .blue, .green] ∧
   ChannelOrder.slots .grb = [.green, .red, .blue] ∧ ChannelOrder.slots .gbr = [.green, .blue, .red] ∧
   ChannelOrder.slots .brg = [.blue, .red, .green] ∧ ChannelOrder.slots .bgr = [.blue, .green, .red]) ∧
  ∀ (p : Params) (t : Table) (en : Bool) (snap : Memory),
    (buildFrame p t en snap)[48 * snap.length]? = some ⟨t.trst.toNat, .low⟩ ∧
    ∀ (i s b : Nat) (px : Color) (ch : Primary),
      snap[i]? = some px → p.channelOrder.slots[s]? = some ch → b < 8 →
      let c := if en then attenuate p.attenRounding px else px
      let v := match ch with
        | .red => c.extractLsb' 16 8
        | .green => c.extractLsb' 8 8
        | .blue => c.extractLsb' 0 8
      let bit := v.getLsbD b
      let q := 48 * i + 16 * s + 2 * (7 - b)
      (buildFrame p t en snap)[q]? = some ⟨if bit then t.t1h.toNat else t.t0h.toNat, .high⟩ ∧
      (buildFrame p t en snap)[q + 1]? = some ⟨if bit then t.t1l.toNat else t.t0l.toNat, .low⟩

/-- 41_encode.md R150: ENCODE of a black buffer leaves `24*NE` zero symbols and one reset pulse, whatever ATTEN_EN and
ATTEN_ROUNDING are. -/
def Obligations.BlackBufferGivesZeroSymbols : Prop :=
  ∀ (s : State) (c : Channel), s.chan? s.cur = some c → s.tbl.valid = true → c.pix = List.replicate s.par.ne 0 →
    ∃ t d, exec .encode s = .next t ∧ t.chan? s.cur = some d ∧
      d.frame = (List.replicate (24 * s.par.ne) (sym s.tbl false)).flatten ++ [rst s.tbl]

/-- 41_encode.md R151: ENCODE of a white buffer gives only one symbols with ATTEN_EN = 0; with ATTEN_EN = 1 each byte is
0x80 under HALF_UP and 0x7F under FLOOR. -/
def Obligations.WhiteBufferGivesOneSymbolsUnattenuated : Prop :=
  ∀ (s : State) (c : Channel), s.chan? s.cur = some c → s.tbl.valid = true →
    c.pix = List.replicate s.par.ne 0xFFFFFF →
    let zero := sym s.tbl false
    let one := sym s.tbl true
    let pattern :=
      if c.attenEn = false then List.replicate (24 * s.par.ne) one
      else (List.replicate (3 * s.par.ne)
        (match s.par.attenRounding with
         | .halfUp => [one, zero, zero, zero, zero, zero, zero, zero]
         | .floor => [zero, one, one, one, one, one, one, one])).flatten
    ∃ t d, exec .encode s = .next t ∧ t.chan? s.cur = some d ∧ d.frame = pattern.flatten ++ [rst s.tbl]

/-- 41_encode.md R152: `48*NE + 1` fits FRAME_LEN, and the one bits of a frame are counted by the popcounts of the `3*NE`
serialised bytes. -/
def Obligations.OneBitsAreThePopcounts : Prop :=
  (∀ p : Params, p.ok = true → (BitVec.ofNat 32 p.frameLen).toNat = 2 * 24 * p.ne + 1) ∧
  ∀ (p : Params) (en : Bool) (snap : Memory),
    let bytes := snap.flatMap fun px => wireBytes p (sentColor p en px)
    bytes.length = 3 * snap.length ∧
    (frameBits p en snap).length = 24 * snap.length ∧
    (frameBits p en snap).count true = (bytes.map fun v => ((List.range 8).filter fun b => v.getLsbD b).length).sum

/-- 70_reset_and_hazards.md R272: a frame lasts the sum of its bits' two phases, plus the reset pulse, in ticks. -/
def Obligations.FrameTicksAreTheSumOfItsBits : Prop :=
  ∀ (p : Params) (t : Table) (en : Bool) (snap : Memory),
    pulsesTicks (buildFrame p t en snap) =
      (frameBits p en snap).count true * (t.t1h.toNat + t.t1l.toNat)
      + (frameBits p en snap).count false * (t.t0h.toNat + t.t0l.toNat) + t.trst.toNat

/-- 41_encode.md R147: the frame ENCODE leaves depends only on the channel's pixels, ATTEN_EN, the table and the
parameters. -/
def Obligations.FrameDependsOnlyOnItsInputs : Prop :=
  ∀ (s₁ s₂ t₁ t₂ : State) (c₁ c₂ d₁ d₂ : Channel),
    s₁.chan? s₁.cur = some c₁ → s₂.chan? s₂.cur = some c₂ →
    s₁.par = s₂.par → s₁.tbl = s₂.tbl → c₁.pix = c₂.pix → c₁.attenEn = c₂.attenEn →
    exec .encode s₁ = .next t₁ → exec .encode s₂ = .next t₂ →
    t₁.chan? s₁.cur = some d₁ → t₂.chan? s₂.cur = some d₂ →
    d₁.frame = d₂.frame ∧ d₁.frameClk = d₂.frameClk ∧ d₁.frameLen = d₂.frameLen ∧ d₁.frameValid = d₂.frameValid

/-- 20_memory.md R76: a held frame changes only by its own host's ENCODE, XMIT or CYCLE, or by block reset: no write to the
pixels, to CTRL or to CLK_HZ, and no other agent, changes it. -/
def Obligations.FrameIsASnapshot : Prop :=
  ∀ (s t : State) (k : Nat) (c d : Channel), step s = .next t → s.chan? k = some c → t.chan? k = some d →
    d.frame ≠ c.frame → s.nextMove = .reset ∨
      (s.nextMove = .host k ∧ ∃ a w rest, c.host.prog = a :: rest ∧ a.dir = .write w ∧ a.addr.toNat = k * 0x40 ∧
        (decodeWord w = .encode ∨ decodeWord w = .xmit ∨ decodeWord w = .cycle))

/-! The timing table -/

/-- 43_table.md R195: every row of its table, at the default durations and `TICK_MAX`. -/
def Obligations.DefaultTickTable : Prop :=
  let p := fun r => { Config.params with tickRounding := r }
  let installs := fun r (c : Word) l =>
    tickList (p r) c.toNat = l ∧ computeTable (p r) c = .ok (tableOf (p r) c)
  let rejects := fun r (c : Word) l => tickList (p r) c.toNat = l ∧ computeTable (p r) c = .error .tickRange
  (∀ r, installs r 80000000 [28, 64, 56, 48, 4000] ∧ installs r 40000000 [14, 32, 28, 24, 2000] ∧
    rejects r 700000000 [245, 560, 490, 420, 35000] ∧ computeTable (p r) 0 = .error .noClock) ∧
  installs .floor 10000000 [3, 8, 7, 6, 500] ∧ installs .nearest 10000000 [4, 8, 7, 6, 500] ∧
  installs .floor 3000000 [1, 2, 2, 1, 150] ∧ installs .nearest 3000000 [1, 2, 2, 2, 150] ∧
  rejects .floor 2000000 [0, 1, 1, 1, 100] ∧ installs .nearest 2000000 [1, 2, 1, 1, 100] ∧
  rejects .floor 1000000 [0, 0, 0, 0, 50] ∧ rejects .nearest 1000000 [0, 1, 1, 1, 50] ∧
  installs .floor 655000000 [229, 524, 458, 393, 32750] ∧ installs .nearest 655000000 [229, 524, 459, 393, 32750]

/-- 43_table.md R197: the realised duration of a phase, in nanoseconds, as a rational number. -/
def Obligations.QuantisationOfAPhase : Prop :=
  (∀ ns c : Nat, 0 < c →
    ((ns : ℚ) - 10 ^ 9 / c < (ticks .floor ns c : ℚ) * 10 ^ 9 / c ∧ (ticks .floor ns c : ℚ) * 10 ^ 9 / c ≤ ns) ∧
    ((ns : ℚ) - 10 ^ 9 / (2 * c) ≤ (ticks .nearest ns c : ℚ) * 10 ^ 9 / c ∧
      (ticks .nearest ns c : ℚ) * 10 ^ 9 / c ≤ ns + 10 ^ 9 / (2 * c))) ∧
  ∀ ns ∈ [350, 800, 700, 600, 50000], ∀ r, ticks r ns 80000000 * 1000000000 = ns * 80000000

/-- 10_state.md R23, 70_reset_and_hazards.md R263: the table changes only by a block reset, or by one host's TBL_INIT that
finds it invalid and computes it, whole, from its own CLK_HZ; so a valid table stays until block reset. -/
def Obligations.TableIsWrittenOnceUntilReset : Prop :=
  ∀ (s t : State), step s = .next t → t.tbl ≠ s.tbl → s.nextMove ≠ .reset →
    s.tbl.valid = false ∧ t.tbl.valid = true ∧
    ∃ k c a rest, s.nextMove = .host k ∧ s.chan? k = some c ∧ c.host.prog = a :: rest ∧
      a.dir = .write 0x00000001 ∧ a.addr.toNat = k * 0x40 ∧ computeTable s.par c.clkHz = .ok t.tbl

/-! The transmitter -/

/-- 42_transmit.md R173: with CONT and a pulse left, the pulse at TX_POS goes out, the line takes its level, TX_POS goes up
by one, and nothing else changes. -/
def Obligations.TransmitterEmitsTheNextPulse : Prop :=
  ∀ (s : State) (k : Nat) (r : TxResult) (c : Channel) (q : Pulse),
    s.nextMove = .tx k .cont r → s.chan? k = some c → c.tx.active = true → c.tx.frame[c.tx.pos]? = some q →
    step s = .next (s.advance.putChan k { c with
      tx := { c.tx with line := q.level, pos := c.tx.pos + 1 }
      stream := c.stream ++ [⟨q, c.tx.clk⟩] })

/-- 42_transmit.md R175: the step that finishes releases the host, clears BUSY and TX_ACTIVE and drives the line LOW; the
result is FAIL, with XMIT_ERR and code 5, where it drew FAIL, and else the second draw. -/
def Obligations.TransmitterReportsItsResult : Prop :=
  ∀ (s : State) (k : Nat) (d : Draw) (r : TxResult) (c : Channel),
    s.nextMove = .tx k d r → s.chan? k = some c → c.tx.active = true →
    (d = .fail ∨ c.tx.frame.length ≤ c.tx.pos) →
    let e := { c with
      tx := { c.tx with active := false, line := .low }, busy := false, host := { c.host with held := false } }
    step s = .next (s.advance.putChan k
      (if d = .fail ∨ r = .fail then { e with xmitErr := true, errCode := .xmitFail } else e))

/-- 42_transmit.md R175: when a transmission ends, the newest part of the line's stream is exactly the first TX_POS pulses of
its frame, in order; where the result is OK that is the whole frame. From every sound state. -/
def Obligations.OkMeansTheWholeFrameWasEmitted : Prop :=
  ∀ (s t : State) (k : Nat) (d : Draw) (r : TxResult) (c e : Channel), s.Sound →
    s.nextMove = .tx k d r → s.chan? k = some c → c.tx.active = true →
    step s = .next t → t.chan? k = some e → e.tx.active = false →
    (c.tx.pos ≤ c.tx.frame.length ∧ e.stream = c.stream ∧
      ((c.tx.frame.take c.tx.pos).map fun q => (⟨q, c.tx.clk⟩ : Emission)) <:+ e.stream) ∧
    (d = .cont → r = .ok →
      c.tx.pos = c.tx.frame.length ∧
      (c.tx.frame.map fun q => (⟨q, c.tx.clk⟩ : Emission)) <:+ e.stream ∧ c.tx.frame.length = 48 * s.par.ne + 1 ∧
      e.xmitErr = c.xmitErr ∧ e.errCode = c.errCode)

/-- 42_transmit.md R175 ("any prefix of the frame as emitted, from none to all"): after any number of pulses of a frame
just handed over there are draws with which exactly that prefix is emitted and the result is FAIL. -/
def Obligations.FailAdmitsEveryPrefix : Prop :=
  ∀ (s : State) (k : Nat) (c : Channel) (n : Nat), s.chan? k = some c → c.tx.active = true → c.tx.pos = 0 →
    n ≤ c.tx.frame.length →
    s.moves = List.replicate n (.tx k .cont .ok) ++ [.tx k .fail .ok] →
    ∃ t e, Host.Core.run Sys2Proof.core (n + 1) s = .next t ∧ t.chan? k = some e ∧
      e.stream = c.stream ++ (c.tx.frame.take n).map (fun q => (⟨q, c.tx.clk⟩ : Emission)) ∧
      e.tx.active = false ∧ e.busy = false ∧ e.host.held = false ∧ e.tx.line = .low ∧
      e.xmitErr = true ∧ e.errCode = .xmitFail

/-- 42_transmit.md R177: a failed transmission, by either draw, leaves the table, the pixels, CTRL, CLK_HZ and the other
channels, and the host's next command executes normally: when the host moves next, the step is exec of that command on its
channel, as StepRunsTheDecodedCommand has it, and it answers a next state. -/
def Obligations.FailureIsFatalToTheCycleOnly : Prop :=
  ∀ (s t : State) (k : Nat) (d : Draw) (r : TxResult) (c e : Channel),
    s.nextMove = .tx k d r → s.chan? k = some c → c.tx.active = true →
    (d = .fail ∨ r = .fail ∧ c.tx.frame.length ≤ c.tx.pos) → step s = .next t → t.chan? k = some e →
    t.tbl = s.tbl ∧ e.pix = c.pix ∧ e.attenEn = c.attenEn ∧ e.clkHz = c.clkHz ∧
    (∀ j, j ≠ k → t.chan? j = s.chan? j) ∧
    e.host.held = false ∧ e.busy = false ∧ e.host.prog = c.host.prog ∧
    ∀ a rest w, c.host.prog = a :: rest → admission s.par k a = .ok 0x00 → a.dir = .write w → t.nextMove = .host k →
      ∃ u, step t = .next u ∧
        exec (decodeWord w) { t.advance with
          cur := k
          chans := t.chans.set k { e with host := { held := false, prog := rest, inbox := e.host.inbox } } } = .next u

/-- 42_transmit.md R180, the bound over listed moves (HeldHostIsReleasedUnderWeakFairness says it of executions): from a sound
state whose hosts keep to the bus rules, a list of moves with `48*NE + 2` moves of `TX_k` among any others releases host `H_k` on the way. -/
def Obligations.TransmissionCompletesInBoundedSteps : Prop :=
  ∀ (s : State) (k : Nat) (c : Channel), s.Sound → s.ProgramsAdmitted → s.chan? k = some c →
    48 * s.par.ne + 2 ≤ s.moves.countP (Move.isTxOf k) →
    ∃ j, j ≤ s.moves.length ∧
      ∃ t d, Host.Core.run Sys2Proof.core j s = .next t ∧ t.chan? k = some d ∧ d.host.held = false

/-- 42_transmit.md R180, R174: in every weakly fair execution (log 12) from a sound state, a held host is released, by its
transmitter or by a block reset (the model's move, log 8), after at most `48*NE + 2` steps of `TX_k`, and it is held until
then. -/
def Obligations.HeldHostIsReleasedUnderWeakFairness : Prop :=
  ∀ (e : Nat → State) (moves : Nat → Move) (k n : Nat) (c : Channel),
    IsExecution e moves → WeaklyFair e moves → (e 0).Sound → (e n).chan? k = some c → c.host.held = true →
    ∃ m d, n ≤ m ∧
      (∀ j, n ≤ j → j ≤ m → ∃ b, (e j).chan? k = some b ∧ b.host.held = true) ∧
      (e (m + 1)).chan? k = some d ∧ d.host.held = false ∧
      (Move.agent (moves m) = some (.tx k) ∨ moves m = .reset) ∧
      (List.range' n (m + 1 - n)).countP (fun j => Move.isTxOf k (moves j)) ≤ 48 * (e n).par.ne + 2

/-! The bus -/

/-- 20_memory.md R61 to R63, 10_state.md R21: exactly the accesses that are 32 bits wide, aligned, mapped and in the host's
own bank are admitted, and the register is the one at `addr mod 0x40`. -/
def Obligations.AdmittedAccesses : Prop :=
  ∀ (p : Params) (j off : Nat) (a : Access),
    admission p j a = .ok off ↔
      a.width = .w32 ∧ a.addr.toNat % 4 = 0 ∧ a.addr.toNat < p.k * 0x40 ∧ a.addr.toNat / 0x40 = j ∧
      off = a.addr.toNat % 0x40

/-- 20_memory.md R61, R62, R77 (stuck, a fault by log 4): the machine stops exactly where a host that is not held moves
and its next access is not admitted. -/
def Obligations.StepStopsOnlyOnAnUnadmittedAccess : Prop :=
  ∀ (s : State) (f : Fault),
    step s = .fault f ↔
      ∃ k c a rest, s.nextMove = .host k ∧ s.chan? k = some c ∧ c.host.held = false ∧ c.host.prog = a :: rest ∧
        admission s.par k a = .error f

/-- 20_memory.md R66: an admitted read returns the register to the host and changes nothing else. -/
def Obligations.ReadReturnsTheRegisterOnly : Prop :=
  ∀ (s : State) (k off : Nat) (c : Channel) (a : Access) (rest : List Access),
    s.nextMove = .host k → s.chan? k = some c → c.host.held = false → c.busy = false →
    c.host.prog = a :: rest → admission s.par k a = .ok off → a.dir = .read →
    step s = .next { s.advance with
      cur := k
      chans := s.chans.set k { c with
        host := { held := c.host.held, prog := rest
                  inbox := c.host.inbox ++ [regRead s.par s.tbl c (Reg.ofOffset off)] } } }

/-- 10_state.md R25 to R34: what a read of each register of a bank returns; with the numbers of the error codes
(60_exceptions.md R230). -/
def Obligations.RegistersReadAsTheRulesSay : Prop :=
  (ErrCode.none.code = 0 ∧ ErrCode.noClock.code = 1 ∧ ErrCode.tickRange.code = 2 ∧ ErrCode.encNoTable.code = 3 ∧
   ErrCode.noFrame.code = 4 ∧ ErrCode.xmitFail.code = 5 ∧ ErrCode.illegalCmd.code = 6) ∧
  ∀ (p : Params) (t : Table) (c : Channel),
    let rd := fun off => regRead p t c (Reg.ofOffset off)
    rd 0x00 = 0 ∧
    (∀ b, (rd 0x04).getLsbD b = ([t.valid, c.frameValid, c.busy, c.dupWarn, c.initFail, c.encErr, c.xmitErr, c.illCmd,
        c.errCode.code.getLsbD 0, c.errCode.code.getLsbD 1, c.errCode.code.getLsbD 2,
        c.errCode.code.getLsbD 3][b]?.getD false)) ∧
    rd 0x08 = (if c.attenEn then 1 else 0) ∧ rd 0x0C = c.clkHz ∧ (p.ne < 2 ^ 32 → (rd 0x10).toNat = p.ne) ∧
    rd 0x14 = c.pixIdx ∧ (rd 0x18).toNat = c.pixData.toNat ∧ rd 0x1C = c.frameLen ∧
    (t.valid = true →
      (rd 0x20).extractLsb' 0 16 = t.t0h ∧ (rd 0x20).extractLsb' 16 16 = t.t0l ∧
      (rd 0x24).extractLsb' 0 16 = t.t1h ∧ (rd 0x24).extractLsb' 16 16 = t.t1l ∧
      (rd 0x28).toNat = t.trst.toNat ∧ rd 0x2C = t.clk) ∧
    (t.valid = false → rd 0x20 = 0 ∧ rd 0x24 = 0 ∧ rd 0x28 = 0 ∧ rd 0x2C = 0) ∧
    rd 0x30 = 0 ∧ rd 0x34 = 0 ∧ rd 0x38 = 0 ∧ rd 0x3C = 0

/-- 20_memory.md R67, 10_state.md R33: an admitted write to a register other than CMD stores CTRL, CLK_HZ, PIX_IDX or
PIX_DATA, and to every other slot has no effect. -/
def Obligations.RegisterWriteStoresOrIsIgnored : Prop :=
  ∀ (s : State) (k off : Nat) (c : Channel) (a : Access) (rest : List Access) (v : Word),
    s.nextMove = .host k → s.chan? k = some c → c.host.held = false → c.busy = false →
    c.host.prog = a :: rest → admission s.par k a = .ok off → a.dir = .write v → off ≠ 0x00 →
    let c' := { c with host := { held := c.host.held, prog := rest, inbox := c.host.inbox } }
    step s = .next { s.advance with
      cur := k
      chans := s.chans.set k
        (if off = 0x08 then { c' with attenEn := v.getLsbD 0 }
         else if off = 0x0C then { c' with clkHz := v }
         else if off = 0x14 then { c' with pixIdx := v }
         else if off = 0x18 then { c' with pixData := v.extractLsb' 0 24 }
         else c') }

/-- 20_memory.md R67, R70, 30_encoding.md R92 (in the terms of log 5 and log 7): a host's admitted write to CMD is one step
that takes the access from the host's program and is exec of the decoded command on that host's channel. -/
def Obligations.StepRunsTheDecodedCommand : Prop :=
  ∀ (s : State) (k : Nat) (c : Channel) (a : Access) (rest : List Access) (i : Instr) (w : Word),
    s.nextMove = .host k → s.chan? k = some c → c.host.held = false → c.busy = false →
    c.host.prog = a :: rest → admission s.par k a = .ok 0x00 → a.dir = .write w → decodeWord w = i →
    step s = exec i { s.advance with
      cur := k
      chans := s.chans.set k { c with host := { held := c.host.held, prog := rest, inbox := c.host.inbox } } }

/-- 42_transmit.md R174, 20_memory.md R68: while HELD is 1 the host has no step, and while BUSY is 1 its admitted access
waits: the machine stays as it is, the access stays in the host's program, and nothing is refused. -/
def Obligations.HeldHostAndBusyBankWait : Prop :=
  ∀ (s : State) (k : Nat) (c : Channel), s.nextMove = .host k → s.chan? k = some c →
    (c.host.held = true ∨ c.busy = true ∧ ∀ a rest, c.host.prog = a :: rest → ∃ off, admission s.par k a = .ok off) →
    step s = .next s.advance ∧ s.advance.chans = s.chans ∧ s.advance.tbl = s.tbl

/-- 60_exceptions.md R242: what host `H_k`'s or transmitter `TX_k`'s step does to channel `k` depends on that channel, the
table and the parameters alone, and it changes no other channel. -/
def Obligations.ChannelsAreIsolated : Prop :=
  ∀ (s₁ s₂ t₁ t₂ : State) (k : Nat) (m : Move),
    (m = .host k ∨ ∃ d r, m = .tx k d r) → s₁.nextMove = m → s₂.nextMove = m →
    s₁.par = s₂.par → s₁.tbl = s₂.tbl → s₁.chan? k = s₂.chan? k →
    step s₁ = .next t₁ → step s₂ = .next t₂ →
    t₁.chan? k = t₂.chan? k ∧ t₁.tbl = t₂.tbl ∧ (∀ j, j ≠ k → t₁.chan? j = s₁.chan? j)

/-- 30_encoding.md R100 to R102: a line for channel `k` is an access the bus admits from `H_k`, at the offset of the register
the line names, and the slot at that offset is that register (20_memory.md R63; RegistersReadAsTheRulesSay says what each
slot reads as); and the spec's two examples. -/
def Obligations.AssembledLinesAreAdmitted : Prop :=
  (∀ r : RegName, Reg.ofOffset r.offset = .named r) ∧
  (∀ (p : Params) (l : Asm.Line), p.ok = true → l.channel < p.k →
    admission p l.channel l.access = .ok (match l with
      | .wr r _ _ => r.offset
      | .rd r _ => r.offset
      | .cmd _ _ => 0)) ∧
  (Asm.readLine "CMD TBL_INIT@1").map (List.map fun l => Asm.transaction l.access 0)
    = some [⟨true, 0x00000040, 0x00000001⟩] ∧
  (Asm.readLine "WR CLK_HZ, 80000000").map (List.map fun l => Asm.transaction l.access 0)
    = some [⟨true, 0x0000000C, 0x04C4B400⟩]

/-! The whole machine -/

/-- The state after reset is sound, for every legal choice of parameters (70_reset_and_hazards.md R261, 00_scope.md R8); the
defaults of 00_scope.md R6 with `N = 10`, the model's choice (log 1), are legal. That the hosts' programs are admitted
there is the model's choice too: they are empty at reset (log 5), of which no rule speaks. -/
def Obligations.ResetIsSound : Prop :=
  (∀ p : Params, p.ok = true → (State.resetWith p).Sound ∧ (State.resetWith p).ProgramsAdmitted) ∧
  Config.params.ok = true

/-- Every step keeps a sound state sound, whichever agent moves and whatever it draws: the buffers keep their length
(10_state.md R24), the hold is the transmission (42_transmit.md R174), a held frame is a whole frame of the table in
force (41_encode.md R146), ticks stay in `1 .. TICK_MAX` (00_scope.md R12), an idle line is LOW (42_transmit.md R176). -/
def Obligations.EveryStepKeepsTheStateSound : Prop :=
  ∀ s t : State, s.Sound → step s = .next t → t.Sound

/-- A machine whose hosts keep to the bus rules never stops: no command, register, error or transmission ends a run
(60_exceptions.md R237, 42_transmit.md R177). That the programs are still admitted after a block reset is the model's
choice: the hosts' programs survive it (log 8). -/
def Obligations.AdmittedProgramsNeverStop : Prop :=
  ∀ s : State, s.ProgramsAdmitted → ∃ t, step s = .next t ∧ t.ProgramsAdmitted
end

