-- ==== Sys2Proof/Laws/State.lean ====
section
/-! SUPPORT. What each update of the state leaves in each field, true by definition; and the laws of reaching a
channel. -/

namespace Sys2Proof.Machine

/-! State.putChan -/

@[simp] theorem State.putChan_par (s : State) (k : Nat) (c : Channel) : (s.putChan k c).par = s.par := rfl
@[simp] theorem State.putChan_tbl (s : State) (k : Nat) (c : Channel) : (s.putChan k c).tbl = s.tbl := rfl
@[simp] theorem State.putChan_chans (s : State) (k : Nat) (c : Channel) : (s.putChan k c).chans = s.chans.set k c := rfl
@[simp] theorem State.putChan_cur (s : State) (k : Nat) (c : Channel) : (s.putChan k c).cur = s.cur := rfl
@[simp] theorem State.putChan_moves (s : State) (k : Nat) (c : Channel) : (s.putChan k c).moves = s.moves := rfl
@[simp] theorem State.putChan_count (s : State) (k : Nat) (c : Channel) : (s.putChan k c).count = s.count := rfl

/-! State.advance -/

@[simp] theorem State.advance_par (s : State) : (s.advance).par = s.par := rfl
@[simp] theorem State.advance_tbl (s : State) : (s.advance).tbl = s.tbl := rfl
@[simp] theorem State.advance_chans (s : State) : (s.advance).chans = s.chans := rfl
@[simp] theorem State.advance_cur (s : State) : (s.advance).cur = s.cur := rfl
@[simp] theorem State.advance_moves (s : State) : (s.advance).moves = s.moves.tail := rfl
@[simp] theorem State.advance_count (s : State) : (s.advance).count = s.count + 1 := rfl

/-! State.issue -/

@[simp] theorem State.issue_par (s : State) (k : Nat) (c : Channel) : (s.issue k c).par = s.par := rfl
@[simp] theorem State.issue_tbl (s : State) (k : Nat) (c : Channel) : (s.issue k c).tbl = s.tbl := rfl
@[simp] theorem State.issue_chans (s : State) (k : Nat) (c : Channel) : (s.issue k c).chans = s.chans.set k c.issued := rfl
@[simp] theorem State.issue_cur (s : State) (k : Nat) (c : Channel) : (s.issue k c).cur = k := rfl
@[simp] theorem State.issue_moves (s : State) (k : Nat) (c : Channel) : (s.issue k c).moves = s.moves := rfl
@[simp] theorem State.issue_count (s : State) (k : Nat) (c : Channel) : (s.issue k c).count = s.count := rfl

/-! State.blockReset -/

@[simp] theorem State.blockReset_par (s : State) : (s.blockReset).par = s.par := rfl
@[simp] theorem State.blockReset_tbl (s : State) : (s.blockReset).tbl = Table.reset := rfl
@[simp] theorem State.blockReset_chans (s : State) : (s.blockReset).chans = s.chans.map (Channel.blockReset s.par) := rfl
@[simp] theorem State.blockReset_cur (s : State) : (s.blockReset).cur = 0 := rfl
@[simp] theorem State.blockReset_moves (s : State) : (s.blockReset).moves = s.moves := rfl
@[simp] theorem State.blockReset_count (s : State) : (s.blockReset).count = s.count := rfl

/-! Channel.raise -/

@[simp] theorem Channel.raise_attenEn (e : ErrCode) (c : Channel) : (c.raise e).attenEn = c.attenEn := rfl
@[simp] theorem Channel.raise_clkHz (e : ErrCode) (c : Channel) : (c.raise e).clkHz = c.clkHz := rfl
@[simp] theorem Channel.raise_pixIdx (e : ErrCode) (c : Channel) : (c.raise e).pixIdx = c.pixIdx := rfl
@[simp] theorem Channel.raise_pixData (e : ErrCode) (c : Channel) : (c.raise e).pixData = c.pixData := rfl
@[simp] theorem Channel.raise_frameLen (e : ErrCode) (c : Channel) : (c.raise e).frameLen = c.frameLen := rfl
@[simp] theorem Channel.raise_frameValid (e : ErrCode) (c : Channel) : (c.raise e).frameValid = c.frameValid := rfl
@[simp] theorem Channel.raise_busy (e : ErrCode) (c : Channel) : (c.raise e).busy = c.busy := rfl
@[simp] theorem Channel.raise_dupWarn (e : ErrCode) (c : Channel) : (c.raise e).dupWarn = c.dupWarn := rfl
@[simp] theorem Channel.raise_initFail (e : ErrCode) (c : Channel) : (c.raise e).initFail = c.initFail := rfl
@[simp] theorem Channel.raise_encErr (e : ErrCode) (c : Channel) : (c.raise e).encErr = c.encErr := rfl
@[simp] theorem Channel.raise_xmitErr (e : ErrCode) (c : Channel) : (c.raise e).xmitErr = c.xmitErr := rfl
@[simp] theorem Channel.raise_illCmd (e : ErrCode) (c : Channel) : (c.raise e).illCmd = c.illCmd := rfl
@[simp] theorem Channel.raise_errCode (e : ErrCode) (c : Channel) : (c.raise e).errCode = e := rfl
@[simp] theorem Channel.raise_pix (e : ErrCode) (c : Channel) : (c.raise e).pix = c.pix := rfl
@[simp] theorem Channel.raise_frame (e : ErrCode) (c : Channel) : (c.raise e).frame = c.frame := rfl
@[simp] theorem Channel.raise_frameClk (e : ErrCode) (c : Channel) : (c.raise e).frameClk = c.frameClk := rfl
@[simp] theorem Channel.raise_tx (e : ErrCode) (c : Channel) : (c.raise e).tx = c.tx := rfl
@[simp] theorem Channel.raise_stream (e : ErrCode) (c : Channel) : (c.raise e).stream = c.stream := rfl
@[simp] theorem Channel.raise_host (e : ErrCode) (c : Channel) : (c.raise e).host = c.host := rfl

/-! Channel.issued -/

@[simp] theorem Channel.issued_attenEn (c : Channel) : (c.issued).attenEn = c.attenEn := rfl
@[simp] theorem Channel.issued_clkHz (c : Channel) : (c.issued).clkHz = c.clkHz := rfl
@[simp] theorem Channel.issued_pixIdx (c : Channel) : (c.issued).pixIdx = c.pixIdx := rfl
@[simp] theorem Channel.issued_pixData (c : Channel) : (c.issued).pixData = c.pixData := rfl
@[simp] theorem Channel.issued_frameLen (c : Channel) : (c.issued).frameLen = c.frameLen := rfl
@[simp] theorem Channel.issued_frameValid (c : Channel) : (c.issued).frameValid = c.frameValid := rfl
@[simp] theorem Channel.issued_busy (c : Channel) : (c.issued).busy = c.busy := rfl
@[simp] theorem Channel.issued_dupWarn (c : Channel) : (c.issued).dupWarn = c.dupWarn := rfl
@[simp] theorem Channel.issued_initFail (c : Channel) : (c.issued).initFail = c.initFail := rfl
@[simp] theorem Channel.issued_encErr (c : Channel) : (c.issued).encErr = c.encErr := rfl
@[simp] theorem Channel.issued_xmitErr (c : Channel) : (c.issued).xmitErr = c.xmitErr := rfl
@[simp] theorem Channel.issued_illCmd (c : Channel) : (c.issued).illCmd = c.illCmd := rfl
@[simp] theorem Channel.issued_errCode (c : Channel) : (c.issued).errCode = c.errCode := rfl
@[simp] theorem Channel.issued_pix (c : Channel) : (c.issued).pix = c.pix := rfl
@[simp] theorem Channel.issued_frame (c : Channel) : (c.issued).frame = c.frame := rfl
@[simp] theorem Channel.issued_frameClk (c : Channel) : (c.issued).frameClk = c.frameClk := rfl
@[simp] theorem Channel.issued_tx (c : Channel) : (c.issued).tx = c.tx := rfl
@[simp] theorem Channel.issued_stream (c : Channel) : (c.issued).stream = c.stream := rfl
@[simp] theorem Channel.issued_host (c : Channel) : (c.issued).host = c.host.issued := rfl

/-! Channel.answer -/

@[simp] theorem Channel.answer_attenEn (v : Word) (c : Channel) : (c.answer v).attenEn = c.attenEn := rfl
@[simp] theorem Channel.answer_clkHz (v : Word) (c : Channel) : (c.answer v).clkHz = c.clkHz := rfl
@[simp] theorem Channel.answer_pixIdx (v : Word) (c : Channel) : (c.answer v).pixIdx = c.pixIdx := rfl
@[simp] theorem Channel.answer_pixData (v : Word) (c : Channel) : (c.answer v).pixData = c.pixData := rfl
@[simp] theorem Channel.answer_frameLen (v : Word) (c : Channel) : (c.answer v).frameLen = c.frameLen := rfl
@[simp] theorem Channel.answer_frameValid (v : Word) (c : Channel) : (c.answer v).frameValid = c.frameValid := rfl
@[simp] theorem Channel.answer_busy (v : Word) (c : Channel) : (c.answer v).busy = c.busy := rfl
@[simp] theorem Channel.answer_dupWarn (v : Word) (c : Channel) : (c.answer v).dupWarn = c.dupWarn := rfl
@[simp] theorem Channel.answer_initFail (v : Word) (c : Channel) : (c.answer v).initFail = c.initFail := rfl
@[simp] theorem Channel.answer_encErr (v : Word) (c : Channel) : (c.answer v).encErr = c.encErr := rfl
@[simp] theorem Channel.answer_xmitErr (v : Word) (c : Channel) : (c.answer v).xmitErr = c.xmitErr := rfl
@[simp] theorem Channel.answer_illCmd (v : Word) (c : Channel) : (c.answer v).illCmd = c.illCmd := rfl
@[simp] theorem Channel.answer_errCode (v : Word) (c : Channel) : (c.answer v).errCode = c.errCode := rfl
@[simp] theorem Channel.answer_pix (v : Word) (c : Channel) : (c.answer v).pix = c.pix := rfl
@[simp] theorem Channel.answer_frame (v : Word) (c : Channel) : (c.answer v).frame = c.frame := rfl
@[simp] theorem Channel.answer_frameClk (v : Word) (c : Channel) : (c.answer v).frameClk = c.frameClk := rfl
@[simp] theorem Channel.answer_tx (v : Word) (c : Channel) : (c.answer v).tx = c.tx := rfl
@[simp] theorem Channel.answer_stream (v : Word) (c : Channel) : (c.answer v).stream = c.stream := rfl
@[simp] theorem Channel.answer_host (v : Word) (c : Channel) : (c.answer v).host = { c.host with inbox := c.host.inbox ++ [v] } := rfl

/-! Channel.clearEncErr -/

@[simp] theorem Channel.clearEncErr_attenEn (c : Channel) : (c.clearEncErr).attenEn = c.attenEn := rfl
@[simp] theorem Channel.clearEncErr_clkHz (c : Channel) : (c.clearEncErr).clkHz = c.clkHz := rfl
@[simp] theorem Channel.clearEncErr_pixIdx (c : Channel) : (c.clearEncErr).pixIdx = c.pixIdx := rfl
@[simp] theorem Channel.clearEncErr_pixData (c : Channel) : (c.clearEncErr).pixData = c.pixData := rfl
@[simp] theorem Channel.clearEncErr_frameLen (c : Channel) : (c.clearEncErr).frameLen = c.frameLen := rfl
@[simp] theorem Channel.clearEncErr_frameValid (c : Channel) : (c.clearEncErr).frameValid = c.frameValid := rfl
@[simp] theorem Channel.clearEncErr_busy (c : Channel) : (c.clearEncErr).busy = c.busy := rfl
@[simp] theorem Channel.clearEncErr_dupWarn (c : Channel) : (c.clearEncErr).dupWarn = c.dupWarn := rfl
@[simp] theorem Channel.clearEncErr_initFail (c : Channel) : (c.clearEncErr).initFail = c.initFail := rfl
@[simp] theorem Channel.clearEncErr_encErr (c : Channel) : (c.clearEncErr).encErr = false := rfl
@[simp] theorem Channel.clearEncErr_xmitErr (c : Channel) : (c.clearEncErr).xmitErr = c.xmitErr := rfl
@[simp] theorem Channel.clearEncErr_illCmd (c : Channel) : (c.clearEncErr).illCmd = c.illCmd := rfl
@[simp] theorem Channel.clearEncErr_errCode (c : Channel) : (c.clearEncErr).errCode = c.errCode := rfl
@[simp] theorem Channel.clearEncErr_pix (c : Channel) : (c.clearEncErr).pix = c.pix := rfl
@[simp] theorem Channel.clearEncErr_frame (c : Channel) : (c.clearEncErr).frame = c.frame := rfl
@[simp] theorem Channel.clearEncErr_frameClk (c : Channel) : (c.clearEncErr).frameClk = c.frameClk := rfl
@[simp] theorem Channel.clearEncErr_tx (c : Channel) : (c.clearEncErr).tx = c.tx := rfl
@[simp] theorem Channel.clearEncErr_stream (c : Channel) : (c.clearEncErr).stream = c.stream := rfl
@[simp] theorem Channel.clearEncErr_host (c : Channel) : (c.clearEncErr).host = c.host := rfl

/-! Channel.clearXmitErr -/

@[simp] theorem Channel.clearXmitErr_attenEn (c : Channel) : (c.clearXmitErr).attenEn = c.attenEn := rfl
@[simp] theorem Channel.clearXmitErr_clkHz (c : Channel) : (c.clearXmitErr).clkHz = c.clkHz := rfl
@[simp] theorem Channel.clearXmitErr_pixIdx (c : Channel) : (c.clearXmitErr).pixIdx = c.pixIdx := rfl
@[simp] theorem Channel.clearXmitErr_pixData (c : Channel) : (c.clearXmitErr).pixData = c.pixData := rfl
@[simp] theorem Channel.clearXmitErr_frameLen (c : Channel) : (c.clearXmitErr).frameLen = c.frameLen := rfl
@[simp] theorem Channel.clearXmitErr_frameValid (c : Channel) : (c.clearXmitErr).frameValid = c.frameValid := rfl
@[simp] theorem Channel.clearXmitErr_busy (c : Channel) : (c.clearXmitErr).busy = c.busy := rfl
@[simp] theorem Channel.clearXmitErr_dupWarn (c : Channel) : (c.clearXmitErr).dupWarn = c.dupWarn := rfl
@[simp] theorem Channel.clearXmitErr_initFail (c : Channel) : (c.clearXmitErr).initFail = c.initFail := rfl
@[simp] theorem Channel.clearXmitErr_encErr (c : Channel) : (c.clearXmitErr).encErr = c.encErr := rfl
@[simp] theorem Channel.clearXmitErr_xmitErr (c : Channel) : (c.clearXmitErr).xmitErr = false := rfl
@[simp] theorem Channel.clearXmitErr_illCmd (c : Channel) : (c.clearXmitErr).illCmd = c.illCmd := rfl
@[simp] theorem Channel.clearXmitErr_errCode (c : Channel) : (c.clearXmitErr).errCode = c.errCode := rfl
@[simp] theorem Channel.clearXmitErr_pix (c : Channel) : (c.clearXmitErr).pix = c.pix := rfl
@[simp] theorem Channel.clearXmitErr_frame (c : Channel) : (c.clearXmitErr).frame = c.frame := rfl
@[simp] theorem Channel.clearXmitErr_frameClk (c : Channel) : (c.clearXmitErr).frameClk = c.frameClk := rfl
@[simp] theorem Channel.clearXmitErr_tx (c : Channel) : (c.clearXmitErr).tx = c.tx := rfl
@[simp] theorem Channel.clearXmitErr_stream (c : Channel) : (c.clearXmitErr).stream = c.stream := rfl
@[simp] theorem Channel.clearXmitErr_host (c : Channel) : (c.clearXmitErr).host = c.host := rfl

/-! Channel.clearStatus -/

@[simp] theorem Channel.clearStatus_attenEn (c : Channel) : (c.clearStatus).attenEn = c.attenEn := rfl
@[simp] theorem Channel.clearStatus_clkHz (c : Channel) : (c.clearStatus).clkHz = c.clkHz := rfl
@[simp] theorem Channel.clearStatus_pixIdx (c : Channel) : (c.clearStatus).pixIdx = c.pixIdx := rfl
@[simp] theorem Channel.clearStatus_pixData (c : Channel) : (c.clearStatus).pixData = c.pixData := rfl
@[simp] theorem Channel.clearStatus_frameLen (c : Channel) : (c.clearStatus).frameLen = c.frameLen := rfl
@[simp] theorem Channel.clearStatus_frameValid (c : Channel) : (c.clearStatus).frameValid = c.frameValid := rfl
@[simp] theorem Channel.clearStatus_busy (c : Channel) : (c.clearStatus).busy = c.busy := rfl
@[simp] theorem Channel.clearStatus_dupWarn (c : Channel) : (c.clearStatus).dupWarn = false := rfl
@[simp] theorem Channel.clearStatus_initFail (c : Channel) : (c.clearStatus).initFail = false := rfl
@[simp] theorem Channel.clearStatus_encErr (c : Channel) : (c.clearStatus).encErr = false := rfl
@[simp] theorem Channel.clearStatus_xmitErr (c : Channel) : (c.clearStatus).xmitErr = false := rfl
@[simp] theorem Channel.clearStatus_illCmd (c : Channel) : (c.clearStatus).illCmd = false := rfl
@[simp] theorem Channel.clearStatus_errCode (c : Channel) : (c.clearStatus).errCode = .none := rfl
@[simp] theorem Channel.clearStatus_pix (c : Channel) : (c.clearStatus).pix = c.pix := rfl
@[simp] theorem Channel.clearStatus_frame (c : Channel) : (c.clearStatus).frame = c.frame := rfl
@[simp] theorem Channel.clearStatus_frameClk (c : Channel) : (c.clearStatus).frameClk = c.frameClk := rfl
@[simp] theorem Channel.clearStatus_tx (c : Channel) : (c.clearStatus).tx = c.tx := rfl
@[simp] theorem Channel.clearStatus_stream (c : Channel) : (c.clearStatus).stream = c.stream := rfl
@[simp] theorem Channel.clearStatus_host (c : Channel) : (c.clearStatus).host = c.host := rfl

/-! Channel.illegal -/

@[simp] theorem Channel.illegal_attenEn (c : Channel) : (c.illegal).attenEn = c.attenEn := rfl
@[simp] theorem Channel.illegal_clkHz (c : Channel) : (c.illegal).clkHz = c.clkHz := rfl
@[simp] theorem Channel.illegal_pixIdx (c : Channel) : (c.illegal).pixIdx = c.pixIdx := rfl
@[simp] theorem Channel.illegal_pixData (c : Channel) : (c.illegal).pixData = c.pixData := rfl
@[simp] theorem Channel.illegal_frameLen (c : Channel) : (c.illegal).frameLen = c.frameLen := rfl
@[simp] theorem Channel.illegal_frameValid (c : Channel) : (c.illegal).frameValid = c.frameValid := rfl
@[simp] theorem Channel.illegal_busy (c : Channel) : (c.illegal).busy = c.busy := rfl
@[simp] theorem Channel.illegal_dupWarn (c : Channel) : (c.illegal).dupWarn = c.dupWarn := rfl
@[simp] theorem Channel.illegal_initFail (c : Channel) : (c.illegal).initFail = c.initFail := rfl
@[simp] theorem Channel.illegal_encErr (c : Channel) : (c.illegal).encErr = c.encErr := rfl
@[simp] theorem Channel.illegal_xmitErr (c : Channel) : (c.illegal).xmitErr = c.xmitErr := rfl
@[simp] theorem Channel.illegal_illCmd (c : Channel) : (c.illegal).illCmd = true := rfl
@[simp] theorem Channel.illegal_errCode (c : Channel) : (c.illegal).errCode = .illegalCmd := rfl
@[simp] theorem Channel.illegal_pix (c : Channel) : (c.illegal).pix = c.pix := rfl
@[simp] theorem Channel.illegal_frame (c : Channel) : (c.illegal).frame = c.frame := rfl
@[simp] theorem Channel.illegal_frameClk (c : Channel) : (c.illegal).frameClk = c.frameClk := rfl
@[simp] theorem Channel.illegal_tx (c : Channel) : (c.illegal).tx = c.tx := rfl
@[simp] theorem Channel.illegal_stream (c : Channel) : (c.illegal).stream = c.stream := rfl
@[simp] theorem Channel.illegal_host (c : Channel) : (c.illegal).host = c.host := rfl

/-! Channel.dupInit -/

@[simp] theorem Channel.dupInit_attenEn (c : Channel) : (c.dupInit).attenEn = c.attenEn := rfl
@[simp] theorem Channel.dupInit_clkHz (c : Channel) : (c.dupInit).clkHz = c.clkHz := rfl
@[simp] theorem Channel.dupInit_pixIdx (c : Channel) : (c.dupInit).pixIdx = c.pixIdx := rfl
@[simp] theorem Channel.dupInit_pixData (c : Channel) : (c.dupInit).pixData = c.pixData := rfl
@[simp] theorem Channel.dupInit_frameLen (c : Channel) : (c.dupInit).frameLen = c.frameLen := rfl
@[simp] theorem Channel.dupInit_frameValid (c : Channel) : (c.dupInit).frameValid = c.frameValid := rfl
@[simp] theorem Channel.dupInit_busy (c : Channel) : (c.dupInit).busy = c.busy := rfl
@[simp] theorem Channel.dupInit_dupWarn (c : Channel) : (c.dupInit).dupWarn = true := rfl
@[simp] theorem Channel.dupInit_initFail (c : Channel) : (c.dupInit).initFail = c.initFail := rfl
@[simp] theorem Channel.dupInit_encErr (c : Channel) : (c.dupInit).encErr = c.encErr := rfl
@[simp] theorem Channel.dupInit_xmitErr (c : Channel) : (c.dupInit).xmitErr = c.xmitErr := rfl
@[simp] theorem Channel.dupInit_illCmd (c : Channel) : (c.dupInit).illCmd = c.illCmd := rfl
@[simp] theorem Channel.dupInit_errCode (c : Channel) : (c.dupInit).errCode = c.errCode := rfl
@[simp] theorem Channel.dupInit_pix (c : Channel) : (c.dupInit).pix = c.pix := rfl
@[simp] theorem Channel.dupInit_frame (c : Channel) : (c.dupInit).frame = c.frame := rfl
@[simp] theorem Channel.dupInit_frameClk (c : Channel) : (c.dupInit).frameClk = c.frameClk := rfl
@[simp] theorem Channel.dupInit_tx (c : Channel) : (c.dupInit).tx = c.tx := rfl
@[simp] theorem Channel.dupInit_stream (c : Channel) : (c.dupInit).stream = c.stream := rfl
@[simp] theorem Channel.dupInit_host (c : Channel) : (c.dupInit).host = c.host := rfl

/-! Channel.initFailed -/

@[simp] theorem Channel.initFailed_attenEn (e : ErrCode) (c : Channel) : (c.initFailed e).attenEn = c.attenEn := rfl
@[simp] theorem Channel.initFailed_clkHz (e : ErrCode) (c : Channel) : (c.initFailed e).clkHz = c.clkHz := rfl
@[simp] theorem Channel.initFailed_pixIdx (e : ErrCode) (c : Channel) : (c.initFailed e).pixIdx = c.pixIdx := rfl
@[simp] theorem Channel.initFailed_pixData (e : ErrCode) (c : Channel) : (c.initFailed e).pixData = c.pixData := rfl
@[simp] theorem Channel.initFailed_frameLen (e : ErrCode) (c : Channel) : (c.initFailed e).frameLen = c.frameLen := rfl
@[simp] theorem Channel.initFailed_frameValid (e : ErrCode) (c : Channel) : (c.initFailed e).frameValid = c.frameValid := rfl
@[simp] theorem Channel.initFailed_busy (e : ErrCode) (c : Channel) : (c.initFailed e).busy = c.busy := rfl
@[simp] theorem Channel.initFailed_dupWarn (e : ErrCode) (c : Channel) : (c.initFailed e).dupWarn = c.dupWarn := rfl
@[simp] theorem Channel.initFailed_initFail (e : ErrCode) (c : Channel) : (c.initFailed e).initFail = true := rfl
@[simp] theorem Channel.initFailed_encErr (e : ErrCode) (c : Channel) : (c.initFailed e).encErr = c.encErr := rfl
@[simp] theorem Channel.initFailed_xmitErr (e : ErrCode) (c : Channel) : (c.initFailed e).xmitErr = c.xmitErr := rfl
@[simp] theorem Channel.initFailed_illCmd (e : ErrCode) (c : Channel) : (c.initFailed e).illCmd = c.illCmd := rfl
@[simp] theorem Channel.initFailed_errCode (e : ErrCode) (c : Channel) : (c.initFailed e).errCode = e := rfl
@[simp] theorem Channel.initFailed_pix (e : ErrCode) (c : Channel) : (c.initFailed e).pix = c.pix := rfl
@[simp] theorem Channel.initFailed_frame (e : ErrCode) (c : Channel) : (c.initFailed e).frame = c.frame := rfl
@[simp] theorem Channel.initFailed_frameClk (e : ErrCode) (c : Channel) : (c.initFailed e).frameClk = c.frameClk := rfl
@[simp] theorem Channel.initFailed_tx (e : ErrCode) (c : Channel) : (c.initFailed e).tx = c.tx := rfl
@[simp] theorem Channel.initFailed_stream (e : ErrCode) (c : Channel) : (c.initFailed e).stream = c.stream := rfl
@[simp] theorem Channel.initFailed_host (e : ErrCode) (c : Channel) : (c.initFailed e).host = c.host := rfl

/-! Channel.encodeFailed -/

@[simp] theorem Channel.encodeFailed_attenEn (c : Channel) : (c.encodeFailed).attenEn = c.attenEn := rfl
@[simp] theorem Channel.encodeFailed_clkHz (c : Channel) : (c.encodeFailed).clkHz = c.clkHz := rfl
@[simp] theorem Channel.encodeFailed_pixIdx (c : Channel) : (c.encodeFailed).pixIdx = c.pixIdx := rfl
@[simp] theorem Channel.encodeFailed_pixData (c : Channel) : (c.encodeFailed).pixData = c.pixData := rfl
@[simp] theorem Channel.encodeFailed_frameLen (c : Channel) : (c.encodeFailed).frameLen = 0 := rfl
@[simp] theorem Channel.encodeFailed_frameValid (c : Channel) : (c.encodeFailed).frameValid = false := rfl
@[simp] theorem Channel.encodeFailed_busy (c : Channel) : (c.encodeFailed).busy = c.busy := rfl
@[simp] theorem Channel.encodeFailed_dupWarn (c : Channel) : (c.encodeFailed).dupWarn = c.dupWarn := rfl
@[simp] theorem Channel.encodeFailed_initFail (c : Channel) : (c.encodeFailed).initFail = c.initFail := rfl
@[simp] theorem Channel.encodeFailed_encErr (c : Channel) : (c.encodeFailed).encErr = true := rfl
@[simp] theorem Channel.encodeFailed_xmitErr (c : Channel) : (c.encodeFailed).xmitErr = c.xmitErr := rfl
@[simp] theorem Channel.encodeFailed_illCmd (c : Channel) : (c.encodeFailed).illCmd = c.illCmd := rfl
@[simp] theorem Channel.encodeFailed_errCode (c : Channel) : (c.encodeFailed).errCode = .encNoTable := rfl
@[simp] theorem Channel.encodeFailed_pix (c : Channel) : (c.encodeFailed).pix = c.pix := rfl
@[simp] theorem Channel.encodeFailed_frame (c : Channel) : (c.encodeFailed).frame = [] := rfl
@[simp] theorem Channel.encodeFailed_frameClk (c : Channel) : (c.encodeFailed).frameClk = 0 := rfl
@[simp] theorem Channel.encodeFailed_tx (c : Channel) : (c.encodeFailed).tx = c.tx := rfl
@[simp] theorem Channel.encodeFailed_stream (c : Channel) : (c.encodeFailed).stream = c.stream := rfl
@[simp] theorem Channel.encodeFailed_host (c : Channel) : (c.encodeFailed).host = c.host := rfl

/-! Channel.encoded -/

@[simp] theorem Channel.encoded_attenEn (p : Params) (t : Table) (c : Channel) : (c.encoded p t).attenEn = c.attenEn := rfl
@[simp] theorem Channel.encoded_clkHz (p : Params) (t : Table) (c : Channel) : (c.encoded p t).clkHz = c.clkHz := rfl
@[simp] theorem Channel.encoded_pixIdx (p : Params) (t : Table) (c : Channel) : (c.encoded p t).pixIdx = c.pixIdx := rfl
@[simp] theorem Channel.encoded_pixData (p : Params) (t : Table) (c : Channel) : (c.encoded p t).pixData = c.pixData := rfl
@[simp] theorem Channel.encoded_frameLen (p : Params) (t : Table) (c : Channel) : (c.encoded p t).frameLen = BitVec.ofNat 32 p.frameLen := rfl
@[simp] theorem Channel.encoded_frameValid (p : Params) (t : Table) (c : Channel) : (c.encoded p t).frameValid = true := rfl
@[simp] theorem Channel.encoded_busy (p : Params) (t : Table) (c : Channel) : (c.encoded p t).busy = c.busy := rfl
@[simp] theorem Channel.encoded_dupWarn (p : Params) (t : Table) (c : Channel) : (c.encoded p t).dupWarn = c.dupWarn := rfl
@[simp] theorem Channel.encoded_initFail (p : Params) (t : Table) (c : Channel) : (c.encoded p t).initFail = c.initFail := rfl
@[simp] theorem Channel.encoded_encErr (p : Params) (t : Table) (c : Channel) : (c.encoded p t).encErr = c.encErr := rfl
@[simp] theorem Channel.encoded_xmitErr (p : Params) (t : Table) (c : Channel) : (c.encoded p t).xmitErr = c.xmitErr := rfl
@[simp] theorem Channel.encoded_illCmd (p : Params) (t : Table) (c : Channel) : (c.encoded p t).illCmd = c.illCmd := rfl
@[simp] theorem Channel.encoded_errCode (p : Params) (t : Table) (c : Channel) : (c.encoded p t).errCode = c.errCode := rfl
@[simp] theorem Channel.encoded_pix (p : Params) (t : Table) (c : Channel) : (c.encoded p t).pix = if c.attenEn && p.attenInPlace then c.pix.attenuate p.attenRounding else c.pix := rfl
@[simp] theorem Channel.encoded_frame (p : Params) (t : Table) (c : Channel) : (c.encoded p t).frame = buildFrame p t c.attenEn c.pix := rfl
@[simp] theorem Channel.encoded_frameClk (p : Params) (t : Table) (c : Channel) : (c.encoded p t).frameClk = t.clk := rfl
@[simp] theorem Channel.encoded_tx (p : Params) (t : Table) (c : Channel) : (c.encoded p t).tx = c.tx := rfl
@[simp] theorem Channel.encoded_stream (p : Params) (t : Table) (c : Channel) : (c.encoded p t).stream = c.stream := rfl
@[simp] theorem Channel.encoded_host (p : Params) (t : Table) (c : Channel) : (c.encoded p t).host = c.host := rfl

/-! Channel.noFrame -/

@[simp] theorem Channel.noFrame_attenEn (c : Channel) : (c.noFrame).attenEn = c.attenEn := rfl
@[simp] theorem Channel.noFrame_clkHz (c : Channel) : (c.noFrame).clkHz = c.clkHz := rfl
@[simp] theorem Channel.noFrame_pixIdx (c : Channel) : (c.noFrame).pixIdx = c.pixIdx := rfl
@[simp] theorem Channel.noFrame_pixData (c : Channel) : (c.noFrame).pixData = c.pixData := rfl
@[simp] theorem Channel.noFrame_frameLen (c : Channel) : (c.noFrame).frameLen = c.frameLen := rfl
@[simp] theorem Channel.noFrame_frameValid (c : Channel) : (c.noFrame).frameValid = c.frameValid := rfl
@[simp] theorem Channel.noFrame_busy (c : Channel) : (c.noFrame).busy = c.busy := rfl
@[simp] theorem Channel.noFrame_dupWarn (c : Channel) : (c.noFrame).dupWarn = c.dupWarn := rfl
@[simp] theorem Channel.noFrame_initFail (c : Channel) : (c.noFrame).initFail = c.initFail := rfl
@[simp] theorem Channel.noFrame_encErr (c : Channel) : (c.noFrame).encErr = c.encErr := rfl
@[simp] theorem Channel.noFrame_xmitErr (c : Channel) : (c.noFrame).xmitErr = true := rfl
@[simp] theorem Channel.noFrame_illCmd (c : Channel) : (c.noFrame).illCmd = c.illCmd := rfl
@[simp] theorem Channel.noFrame_errCode (c : Channel) : (c.noFrame).errCode = .noFrame := rfl
@[simp] theorem Channel.noFrame_pix (c : Channel) : (c.noFrame).pix = c.pix := rfl
@[simp] theorem Channel.noFrame_frame (c : Channel) : (c.noFrame).frame = c.frame := rfl
@[simp] theorem Channel.noFrame_frameClk (c : Channel) : (c.noFrame).frameClk = c.frameClk := rfl
@[simp] theorem Channel.noFrame_tx (c : Channel) : (c.noFrame).tx = c.tx := rfl
@[simp] theorem Channel.noFrame_stream (c : Channel) : (c.noFrame).stream = c.stream := rfl
@[simp] theorem Channel.noFrame_host (c : Channel) : (c.noFrame).host = c.host := rfl

/-! Channel.handOver -/

@[simp] theorem Channel.handOver_attenEn (c : Channel) : (c.handOver).attenEn = c.attenEn := rfl
@[simp] theorem Channel.handOver_clkHz (c : Channel) : (c.handOver).clkHz = c.clkHz := rfl
@[simp] theorem Channel.handOver_pixIdx (c : Channel) : (c.handOver).pixIdx = c.pixIdx := rfl
@[simp] theorem Channel.handOver_pixData (c : Channel) : (c.handOver).pixData = c.pixData := rfl
@[simp] theorem Channel.handOver_frameLen (c : Channel) : (c.handOver).frameLen = c.frameLen := rfl
@[simp] theorem Channel.handOver_frameValid (c : Channel) : (c.handOver).frameValid = false := rfl
@[simp] theorem Channel.handOver_busy (c : Channel) : (c.handOver).busy = true := rfl
@[simp] theorem Channel.handOver_dupWarn (c : Channel) : (c.handOver).dupWarn = c.dupWarn := rfl
@[simp] theorem Channel.handOver_initFail (c : Channel) : (c.handOver).initFail = c.initFail := rfl
@[simp] theorem Channel.handOver_encErr (c : Channel) : (c.handOver).encErr = c.encErr := rfl
@[simp] theorem Channel.handOver_xmitErr (c : Channel) : (c.handOver).xmitErr = c.xmitErr := rfl
@[simp] theorem Channel.handOver_illCmd (c : Channel) : (c.handOver).illCmd = c.illCmd := rfl
@[simp] theorem Channel.handOver_errCode (c : Channel) : (c.handOver).errCode = c.errCode := rfl
@[simp] theorem Channel.handOver_pix (c : Channel) : (c.handOver).pix = c.pix := rfl
@[simp] theorem Channel.handOver_frame (c : Channel) : (c.handOver).frame = [] := rfl
@[simp] theorem Channel.handOver_frameClk (c : Channel) : (c.handOver).frameClk = c.frameClk := rfl
@[simp] theorem Channel.handOver_tx (c : Channel) : (c.handOver).tx = { c.tx with frame := c.frame, clk := c.frameClk, pos := 0, active := true } := rfl
@[simp] theorem Channel.handOver_stream (c : Channel) : (c.handOver).stream = c.stream := rfl
@[simp] theorem Channel.handOver_host (c : Channel) : (c.handOver).host = { c.host with held := true } := rfl

/-! Channel.emit -/

@[simp] theorem Channel.emit_attenEn (q : Pulse) (c : Channel) : (c.emit q).attenEn = c.attenEn := rfl
@[simp] theorem Channel.emit_clkHz (q : Pulse) (c : Channel) : (c.emit q).clkHz = c.clkHz := rfl
@[simp] theorem Channel.emit_pixIdx (q : Pulse) (c : Channel) : (c.emit q).pixIdx = c.pixIdx := rfl
@[simp] theorem Channel.emit_pixData (q : Pulse) (c : Channel) : (c.emit q).pixData = c.pixData := rfl
@[simp] theorem Channel.emit_frameLen (q : Pulse) (c : Channel) : (c.emit q).frameLen = c.frameLen := rfl
@[simp] theorem Channel.emit_frameValid (q : Pulse) (c : Channel) : (c.emit q).frameValid = c.frameValid := rfl
@[simp] theorem Channel.emit_busy (q : Pulse) (c : Channel) : (c.emit q).busy = c.busy := rfl
@[simp] theorem Channel.emit_dupWarn (q : Pulse) (c : Channel) : (c.emit q).dupWarn = c.dupWarn := rfl
@[simp] theorem Channel.emit_initFail (q : Pulse) (c : Channel) : (c.emit q).initFail = c.initFail := rfl
@[simp] theorem Channel.emit_encErr (q : Pulse) (c : Channel) : (c.emit q).encErr = c.encErr := rfl
@[simp] theorem Channel.emit_xmitErr (q : Pulse) (c : Channel) : (c.emit q).xmitErr = c.xmitErr := rfl
@[simp] theorem Channel.emit_illCmd (q : Pulse) (c : Channel) : (c.emit q).illCmd = c.illCmd := rfl
@[simp] theorem Channel.emit_errCode (q : Pulse) (c : Channel) : (c.emit q).errCode = c.errCode := rfl
@[simp] theorem Channel.emit_pix (q : Pulse) (c : Channel) : (c.emit q).pix = c.pix := rfl
@[simp] theorem Channel.emit_frame (q : Pulse) (c : Channel) : (c.emit q).frame = c.frame := rfl
@[simp] theorem Channel.emit_frameClk (q : Pulse) (c : Channel) : (c.emit q).frameClk = c.frameClk := rfl
@[simp] theorem Channel.emit_tx (q : Pulse) (c : Channel) : (c.emit q).tx = { c.tx with line := q.level, pos := c.tx.pos + 1 } := rfl
@[simp] theorem Channel.emit_stream (q : Pulse) (c : Channel) : (c.emit q).stream = c.stream ++ [⟨q, c.tx.clk⟩] := rfl
@[simp] theorem Channel.emit_host (q : Pulse) (c : Channel) : (c.emit q).host = c.host := rfl

/-! HostAgent.issued -/

@[simp] theorem HostAgent.issued_held (h : HostAgent) : h.issued.held = h.held := rfl
@[simp] theorem HostAgent.issued_prog (h : HostAgent) : h.issued.prog = h.prog.tail := rfl
@[simp] theorem HostAgent.issued_inbox (h : HostAgent) : h.issued.inbox = h.inbox := rfl

/-! Reaching a channel -/

theorem State.chan?_lt {s : State} {k : Nat} {c : Channel} (h : s.chan? k = some c) : k < s.chans.length :=
  (List.getElem?_eq_some_iff.mp h).1

theorem State.chan?_mem {s : State} {k : Nat} {c : Channel} (h : s.chan? k = some c) : c ∈ s.chans :=
  List.mem_of_getElem? h

/-- A channel read after a channel was put. -/
theorem State.chan?_putChan (s : State) (j k : Nat) (c : Channel) :
    (s.putChan k c).chan? j = if j = k then (if k < s.chans.length then some c else none) else s.chan? j := by
  simp only [State.chan?, State.putChan_chans, List.getElem?_set]
  split <;> split <;> simp_all

theorem State.chan?_putChan_self {s : State} {k : Nat} {c : Channel} (d : Channel) (h : s.chan? k = some c) :
    (s.putChan k d).chan? k = some d := by
  simp [State.chan?_putChan, State.chan?_lt h]

theorem State.chan?_putChan_other (s : State) {j k : Nat} (c : Channel) (h : j ≠ k) :
    (s.putChan k c).chan? j = s.chan? j := by
  simp [State.chan?_putChan, h]

@[simp] theorem State.chan?_advance (s : State) (k : Nat) : s.advance.chan? k = s.chan? k := rfl

theorem State.chan?_issue_self {s : State} {k : Nat} {c : Channel} (h : s.chan? k = some c) :
    (s.issue k c).chan? k = some c.issued := by
  simp [State.chan?, State.chan?_lt h]

theorem State.chan?_issue_other (s : State) {j k : Nat} (c : Channel) (h : j ≠ k) :
    (s.issue k c).chan? j = s.chan? j := by
  simp [State.chan?, Ne.symm h]

theorem State.chan?_blockReset (s : State) (k : Nat) :
    s.blockReset.chan? k = (s.chan? k).map (Channel.blockReset s.par) := by
  simp [State.chan?]

@[simp] theorem State.putChan_putChan (s : State) (k : Nat) (c d : Channel) :
    (s.putChan k c).putChan k d = s.putChan k d := by
  simp [State.putChan]

end Sys2Proof.Machine
end

