-- ==== Sys2Proof/Laws/Ops.lean ====
section
/-! SUPPORT. One lemma for each shared operation that says once what it can do: reaching the current channel, the pixel
buffer, admission of an access, the effect of a command, and the cases of a step. -/

namespace Sys2Proof.Machine

/-! The current channel -/

theorem State.putChan_self {s : State} {k : Nat} {c : Channel} (h : s.chan? k = some c) : s.putChan k c = s := by
  obtain ⟨hk, hc⟩ := List.getElem?_eq_some_iff.mp h
  simp only [State.putChan, ← hc, List.set_getElem_self]

theorem State.withCur_some {s : State} {c : Channel} (f : Channel → State) (h : s.chan? s.cur = some c) :
    s.withCur f = .next (f c) := by
  simp [State.withCur, h]

theorem State.withCur_none {s : State} (f : Channel → State) (h : s.chan? s.cur = none) :
    s.withCur f = .fault .noChannel := by
  simp [State.withCur, h]

theorem State.onCur_some {s : State} {c : Channel} (f : Channel → Channel) (h : s.chan? s.cur = some c) :
    s.onCur f = .next (s.putChan s.cur (f c)) :=
  State.withCur_some _ h

/-! The pixel buffer: every operation keeps the canonical form, and a read after a write -/

theorem Memory.wf_iff (ne : Nat) (m : Memory) : Memory.wf ne m = true ↔ m.length = ne := by
  simp [Memory.wf]

theorem Memory.wf_reset (ne : Nat) : Memory.wf ne (Memory.reset ne) = true := by
  simp [Memory.wf, Memory.reset]

@[simp] theorem Memory.length_write (ne : Nat) (m : Memory) (i : Nat) (c : Color) :
    (Memory.write ne m i c).length = m.length := by
  unfold Memory.write; split <;> simp

@[simp] theorem Memory.length_fill (m : Memory) (c : Color) : (Memory.fill m c).length = m.length := by
  simp [Memory.fill]

@[simp] theorem Memory.length_attenuate (r : AttenRounding) (m : Memory) :
    (Memory.attenuate r m).length = m.length := by
  simp [Memory.attenuate]

theorem Memory.wf_write {ne : Nat} {m : Memory} (i : Nat) (c : Color) (h : Memory.wf ne m = true) :
    Memory.wf ne (Memory.write ne m i c) = true := by
  simpa [Memory.wf] using h

theorem Memory.wf_fill {ne : Nat} {m : Memory} (c : Color) (h : Memory.wf ne m = true) :
    Memory.wf ne (Memory.fill m c) = true := by
  simpa [Memory.wf] using h

theorem Memory.wf_attenuate {ne : Nat} {m : Memory} (r : AttenRounding) (h : Memory.wf ne m = true) :
    Memory.wf ne (Memory.attenuate r m) = true := by
  simpa [Memory.wf] using h

/-- A pixel read after a pixel was written: the written one at its index, every other as before. -/
theorem Memory.read_write {ne : Nat} {m : Memory} (i j : Nat) (c : Color) (h : Memory.wf ne m = true) (hj : j < ne) :
    Memory.read ne (Memory.write ne m i c) j = if j = i then some c else Memory.read ne m j := by
  rw [Memory.wf_iff] at h
  unfold Memory.read Memory.write
  by_cases hij : j = i
  · subst hij; simp [hj, h]
  · by_cases hi : i < ne <;> simp [hi, hj, hij, Ne.symm hij]

theorem Memory.fill_eq_replicate (m : Memory) (c : Color) : Memory.fill m c = List.replicate m.length c := by
  simp [Memory.fill]

/-! Admission -/

/-- What an admitted access is, and where it goes. -/
theorem admission_ok {p : Params} {j off : Nat} {a : Access} (h : admission p j a = .ok off) :
    a.width = .w32 ∧ a.addr.toNat % 4 = 0 ∧ a.addr.toNat < p.k * 0x40 ∧ a.addr.toNat / 0x40 = j ∧
      off = a.addr.toNat % 0x40 := by
  unfold admission at h
  split at h
  · cases h
  split at h
  · cases h
  split at h
  · cases h
  split at h
  · cases h
  · cases h
    refine ⟨?_, ?_, ?_, ?_, rfl⟩ <;> simp_all

/-- The offset of CMD is 0 and no other. -/
theorem Reg.ofOffset_cmd {off : Nat} (h : Reg.ofOffset off = .named .cmd) : off = 0 := by
  unfold Reg.ofOffset at h
  split at h <;> first | rfl | cases h

/-! The effect of a command, once for all of them -/

/-- What command `i` makes of its channel, the shared table being `t`. -/
def Effect.chan (p : Params) (t : Table) (c : Channel) : Instr → Channel
  | .nop => c
  | .tblInit =>
    if t.valid then c.dupInit
    else
      match computeTable p c.clkHz with
      | .ok _ => c
      | .error e => c.initFailed e
  | .pixWr => c.pixWr p.ne
  | .pixRd => c.pixRd p.ne
  | .pixFill => c.pixFill
  | .pixClr => c.pixClr
  | .encode => c.encode p t
  | .xmit => c.xmit
  | .cycle => c.cycle p t
  | .clrStat => c.clearStatus
  | .illegal _ => c.illegal

/-- What TBL_INIT makes of the shared table. -/
def Effect.initTable (p : Params) (t : Table) (c : Channel) : Table :=
  if t.valid then t
  else
    match computeTable p c.clkHz with
    | .ok t' => t'
    | .error _ => t

/-- What command `i` makes of the shared table. -/
def Effect.table (p : Params) (t : Table) (c : Channel) : Instr → Table
  | .tblInit => Effect.initTable p t c
  | .nop => t
  | .pixWr => t
  | .pixRd => t
  | .pixFill => t
  | .pixClr => t
  | .encode => t
  | .xmit => t
  | .cycle => t
  | .clrStat => t
  | .illegal _ => t

/-- A command answers a next state in which its channel and the table are what it makes of them, and nothing else is
changed. -/
theorem exec_some (i : Instr) {s : State} {c : Channel} (h : s.chan? s.cur = some c) :
    exec i s = .next { s.putChan s.cur (Effect.chan s.par s.tbl c i) with tbl := Effect.table s.par s.tbl c i } := by
  cases i
  case nop => simp [exec, execNop, State.withCur_some _ h, Effect.chan, Effect.table, State.putChan_self h]
  case tblInit =>
    simp only [exec, execTblInit, State.withCur_some _ h, Effect.chan, Effect.table, Effect.initTable]
    cases s.tbl.valid
    · simp only [Bool.false_eq_true, if_false]
      cases computeTable s.par c.clkHz with
      | ok t => simp only [State.putChan_self h]
      | error e => rfl
    · rfl
  all_goals
    simp only [exec, execPixWr, execPixRd, execPixFill, execPixClr, execEncode, execXmit, execCycle, execClrStat,
      execIllegal, State.onCur_some _ h, Effect.chan, Effect.table]
    rfl

theorem exec_none (i : Instr) {s : State} (h : s.chan? s.cur = none) : exec i s = .fault .noChannel := by
  cases i <;>
    simp [exec, execNop, execTblInit, execPixWr, execPixRd, execPixFill, execPixClr, execEncode, execXmit, execCycle,
      execClrStat, execIllegal, State.onCur, State.withCur_none _ h]

/-- The inversion of `exec`: from a next state, the channel it ran on and what that state is. -/
theorem exec_next {i : Instr} {s t : State} (h : exec i s = .next t) :
    ∃ c, s.chan? s.cur = some c ∧
      t = { s.putChan s.cur (Effect.chan s.par s.tbl c i) with tbl := Effect.table s.par s.tbl c i } := by
  cases hc : s.chan? s.cur with
  | none => rw [exec_none i hc] at h; cases h
  | some c => rw [exec_some i hc] at h; cases h; exact ⟨c, rfl, rfl⟩

/-! The cases of a step -/

/-- What an issued access makes of its channel: a read answers, a command has its effect, a write stores. -/
def Effect.access (p : Params) (t : Table) (c : Channel) (r : Reg) : Dir → Channel
  | .read => c.answer (regRead p t c r)
  | .write w => if r = .named .cmd then Effect.chan p t c (decodeWord w) else regWrite w c r

/-- What an issued access makes of the table: only a command can change it. -/
def Effect.accessTable (p : Params) (t : Table) (c : Channel) (r : Reg) : Dir → Table
  | .read => t
  | .write w => if r = .named .cmd then Effect.table p t c (decodeWord w) else t

/-- An access answers a next state, with its effect on the current channel and the table and on nothing else. -/
theorem access_some (r : Reg) (d : Dir) {s : State} {c : Channel} (h : s.chan? s.cur = some c) :
    access r d s = .next { s.putChan s.cur (Effect.access s.par s.tbl c r d) with
      tbl := Effect.accessTable s.par s.tbl c r d } := by
  rcases d with _ | v
  · simp only [access, State.onCur_some _ h, Effect.access, Effect.accessTable]
    rfl
  · rcases r with r | _
    · cases r
      case cmd => simpa [access, Effect.access, Effect.accessTable] using exec_some (decodeWord v) h
      all_goals
        simp only [access, State.onCur_some _ h, Effect.access, Effect.accessTable]
        rfl
    · simp only [access, State.onCur_some _ h, Effect.access, Effect.accessTable]
      rfl

/-- The host's move when it has a step: the state after it. -/
def State.afterAccess (s : State) (k : Nat) (c : Channel) (r : Reg) (d : Dir) : State :=
  { s with
    cur := k
    chans := s.chans.set k (Effect.access s.par s.tbl c.issued r d)
    tbl := Effect.accessTable s.par s.tbl c.issued r d }

theorem access_issue {s : State} {k : Nat} {c : Channel} (r : Reg) (d : Dir) (h : s.chan? k = some c) :
    access r d (s.issue k c) = .next (s.afterAccess k c r d) := by
  rw [access_some r d (c := c.issued) (State.chan?_issue_self h)]
  simp [State.afterAccess, State.issue, State.putChan]

theorem State.chan?_afterAccess {s : State} {k : Nat} {c : Channel} (j : Nat) (r : Reg) (d : Dir)
    (h : s.chan? k = some c) :
    (s.afterAccess k c r d).chan? j
      = if j = k then some (Effect.access s.par s.tbl c.issued r d) else s.chan? j := by
  have hk := State.chan?_lt h
  by_cases hj : j = k
  · subst hj; simp [State.chan?, State.afterAccess, hk]
  · simp [State.chan?, State.afterAccess, hj, Ne.symm hj]

/-- The cases of a move of host `H_k` that ends in a next state: it had no step, or it made an admitted access. -/
theorem hostMove_next {k : Nat} {s t : State} (h : hostMove k s = .next t) :
    t = s ∨ ∃ c a rest off, s.chan? k = some c ∧ c.host.held = false ∧ c.busy = false ∧
      c.host.prog = a :: rest ∧ admission s.par k a = .ok off ∧
      t = s.afterAccess k c (Reg.ofOffset off) a.dir := by
  unfold hostMove at h
  split at h
  · cases h; exact .inl rfl
  · rename_i c hc
    split at h
    · cases h; exact .inl rfl
    · rename_i hh
      split at h
      · cases h; exact .inl rfl
      · rename_i a rest hp
        split at h
        · cases h
        · rename_i off ho
          split at h
          · cases h; exact .inl rfl
          · rename_i hb
            rw [access_issue _ _ hc] at h
            cases h
            exact .inr ⟨c, a, rest, off, hc, by simpa using hh, by simpa using hb, hp, ho, rfl⟩

/-- The cases of a move of transmitter `TX_k`. -/
theorem txMove_next {k : Nat} {d : Draw} {r : TxResult} {s t : State} (h : txMove k d r s = .next t) :
    t = s ∨ ∃ c, s.chan? k = some c ∧ c.tx.active = true ∧ t = s.putChan k (c.txStep d r) := by
  unfold txMove at h
  split at h
  · rename_i c hc
    split at h
    · rename_i ha
      cases h; exact .inr ⟨c, hc, ha, rfl⟩
    · cases h; exact .inl rfl
  · cases h; exact .inl rfl

/-- The cases of a transmitter's step: it emits the pulse at TX_POS, or it finishes. -/
theorem Channel.txStep_cases (d : Draw) (r : TxResult) (c : Channel) :
    (∃ q, d = .cont ∧ c.tx.frame[c.tx.pos]? = some q ∧ c.txStep d r = c.emit q) ∨
    ((d = .fail ∨ c.tx.frame.length ≤ c.tx.pos) ∧ c.txStep d r = c.finish (resultOf d r)) := by
  unfold Channel.txStep
  cases d with
  | fail => exact .inr ⟨.inl rfl, rfl⟩
  | cont =>
    cases hq : c.tx.frame[c.tx.pos]? with
    | some q => exact .inl ⟨q, rfl, rfl, rfl⟩
    | none => exact .inr ⟨.inr (List.getElem?_eq_none_iff.mp hq), rfl⟩

/-- The cases of a step that ends in a next state, one for each agent that can make it. -/
theorem step_next {s t : State} (h : step s = .next t) :
    t = s.advance ∨
    (∃ k c a rest off, s.nextMove = .host k ∧ s.chan? k = some c ∧ c.host.held = false ∧ c.busy = false ∧
      c.host.prog = a :: rest ∧ admission s.par k a = .ok off ∧
      t = s.advance.afterAccess k c (Reg.ofOffset off) a.dir) ∨
    (∃ k d r c, s.nextMove = .tx k d r ∧ s.chan? k = some c ∧ c.tx.active = true ∧
      t = s.advance.putChan k (c.txStep d r)) ∨
    (s.nextMove = .reset ∧ t = s.advance.blockReset) := by
  unfold step runMove at h
  split at h
  · rename_i k hm
    rcases hostMove_next h with h | ⟨c, a, rest, off, hc, hh, hb, hp, ho, rfl⟩
    · exact .inl h
    · exact .inr (.inl ⟨k, c, a, rest, off, hm, hc, hh, hb, hp, ho, rfl⟩)
  · rename_i k d r hm
    rcases txMove_next h with h | ⟨c, hc, ha, rfl⟩
    · exact .inl h
    · exact .inr (.inr (.inl ⟨k, d, r, c, hm, hc, ha, rfl⟩))
  · rename_i hm
    cases h
    exact .inr (.inr (.inr ⟨hm, rfl⟩))

/-! The step, forwards -/

/-- A move of a host that is not held and has an access to issue. -/
theorem step_host {s : State} {k : Nat} {c : Channel} {a : Access} {rest : List Access}
    (hm : s.nextMove = .host k) (hc : s.chan? k = some c) (hh : c.host.held = false) (hp : c.host.prog = a :: rest) :
    step s = match admission s.par k a with
      | .error f => .fault f
      | .ok off => if c.busy then .next s.advance else access (Reg.ofOffset off) a.dir (s.advance.issue k c) := by
  unfold step runMove
  rw [hm]
  simp only [hostMove, State.chan?_advance, hc, hh, hp]
  rfl

/-- An admitted access of a host that is not held, to a bank that is not busy. -/
theorem step_host_access {s : State} {k off : Nat} {c : Channel} {a : Access} {rest : List Access}
    (hm : s.nextMove = .host k) (hc : s.chan? k = some c) (hh : c.host.held = false) (hb : c.busy = false)
    (hp : c.host.prog = a :: rest) (ha : admission s.par k a = .ok off) :
    step s = .next (s.advance.afterAccess k c (Reg.ofOffset off) a.dir) := by
  rw [step_host hm hc hh hp, ha]
  simp only [hb, Bool.false_eq_true, if_false]
  exact access_issue _ _ hc

/-- A move of an active transmitter. -/
theorem step_tx {s : State} {k : Nat} {d : Draw} {r : TxResult} {c : Channel} (hm : s.nextMove = .tx k d r)
    (hc : s.chan? k = some c) (ha : c.tx.active = true) :
    step s = .next (s.advance.putChan k (c.txStep d r)) := by
  simp [step, runMove, hm, txMove, hc, ha]

/-- A run of the machine goes on from the state after its first step. -/
theorem run_succ {s t : State} (n : Nat) (h : step s = .next t) :
    Host.Core.run Sys2Proof.core (n + 1) s = Host.Core.run Sys2Proof.core n t := by
  have h' : Sys2Proof.core.step s = .next t := h
  simp only [Host.Core.run, h']

end Sys2Proof.Machine
end

