-- ==== Sys2Proof/Laws/Commands.lean ====
section
/-! SUPPORT. The spec lemmas of the command meanings: what ENCODE, XMIT, CYCLE, the table computation and a finishing
transmitter come to in each of their cases. -/

namespace Sys2Proof.Machine

theorem Channel.encode_valid (p : Params) {t : Table} (c : Channel) (h : t.valid = true) :
    c.encode p t = c.clearEncErr.encoded p t := by
  simp [Channel.encode, h]

theorem Channel.encode_invalid (p : Params) {t : Table} (c : Channel) (h : t.valid = false) :
    c.encode p t = c.clearEncErr.encodeFailed := by
  simp [Channel.encode, h]

theorem Channel.xmit_frame {c : Channel} (h : c.frameValid = true) : c.xmit = c.clearXmitErr.handOver := by
  simp [Channel.xmit, h]

theorem Channel.xmit_none {c : Channel} (h : c.frameValid = false) : c.xmit = c.clearXmitErr.noFrame := by
  simp [Channel.xmit, h]

theorem Channel.cycle_valid (p : Params) {t : Table} (c : Channel) (h : t.valid = true) :
    c.cycle p t = ((c.clearEncErr.clearXmitErr.clearEncErr.encoded p t).clearXmitErr).handOver := by
  rw [Channel.cycle, Channel.encode_valid p _ h, ← Channel.xmit_frame (by simp)]
  simp

theorem Channel.cycle_invalid (p : Params) {t : Table} (c : Channel) (h : t.valid = false) :
    c.cycle p t = c.clearEncErr.clearXmitErr.clearEncErr.encodeFailed := by
  rw [Channel.cycle, Channel.encode_invalid p _ h]
  simp

/-- The three ends of the table computation (43_table.md R191). -/
theorem computeTable_cases (p : Params) (c : Word) :
    (c = 0 ∧ computeTable p c = .error .noClock) ∨
    (c ≠ 0 ∧ (tickList p c.toNat).all (tickOk p) = false ∧ computeTable p c = .error .tickRange) ∨
    (c ≠ 0 ∧ (tickList p c.toNat).all (tickOk p) = true ∧ computeTable p c = .ok (tableOf p c)) := by
  unfold computeTable
  by_cases hc : c = 0
  · exact .inl ⟨hc, if_pos hc⟩
  · rw [if_neg hc]
    cases ha : (tickList p c.toNat).all (tickOk p)
    · exact .inr (.inl ⟨hc, rfl, rfl⟩)
    · exact .inr (.inr ⟨hc, rfl, rfl⟩)

theorem tickOk_iff (p : Params) (n : Nat) : tickOk p n = true ↔ 1 ≤ n ∧ n ≤ p.tickMax := by
  simp [tickOk]

/-- A finishing transmitter, as one record for both results (42_transmit.md R175). -/
theorem Channel.finish_eq (r : TxResult) (c : Channel) :
    c.finish r = { c with
      tx := { c.tx with active := false, line := .low }
      busy := false
      host := { c.host with held := false }
      xmitErr := if r = .fail then true else c.xmitErr
      errCode := if r = .fail then .xmitFail else c.errCode } := by
  cases r <;> rfl

/-! The pulse frame -/

theorem ChannelOrder.length_slots (o : ChannelOrder) : o.slots.length = 3 := by
  cases o <;> rfl

theorem length_byteBits (b : Byte) : (byteBits b).length = 8 := by
  simp [byteBits]

theorem length_wireBits (p : Params) (px : Color) : (wireBits p px).length = 24 := by
  have h := ChannelOrder.length_slots p.channelOrder
  simp [wireBits, wireBytes, List.length_flatMap, length_byteBits, Function.comp_def, h]

theorem length_sym (t : Table) (b : Bool) : (sym t b).length = 2 := by
  cases b <;> rfl

theorem length_frameBits (p : Params) (en : Bool) (snap : Memory) :
    (frameBits p en snap).length = 24 * snap.length := by
  simp [frameBits, List.length_flatMap, length_wireBits, Nat.mul_comm]

theorem length_buildFrame (p : Params) (t : Table) (en : Bool) (snap : Memory) :
    (buildFrame p t en snap).length = 48 * snap.length + 1 := by
  simp [buildFrame, List.length_flatMap, length_sym, length_frameBits]
  omega

/-- A pulse of a frame is a phase of one of the two symbols, or the terminator. -/
theorem mem_buildFrame {p : Params} {t : Table} {en : Bool} {snap : Memory} {q : Pulse}
    (h : q ∈ buildFrame p t en snap) : (∃ b, q ∈ sym t b) ∨ q = rst t := by
  simp only [buildFrame, List.mem_append, List.mem_flatMap, List.mem_singleton] at h
  rcases h with ⟨b, -, hb⟩ | h
  · exact .inl ⟨b, hb⟩
  · exact .inr h

/-- Reading a concatenation of blocks of one length: block `i`, place `j` in it. -/
theorem getElem?_flatMap_blocks {α β : Type} (f : α → List β) (n : Nat) (hn : ∀ a, (f a).length = n) (l : List α)
    (i j : Nat) (hj : j < n) : (l.flatMap f)[n * i + j]? = l[i]?.bind fun a => (f a)[j]? := by
  induction l generalizing i with
  | nil => simp
  | cons a l ih =>
    rw [List.flatMap_cons]
    cases i with
    | zero => rw [List.getElem?_append_left (by rw [hn]; simpa using hj)]; simp
    | succ i =>
      rw [List.getElem?_append_right (by rw [hn]; simp [Nat.mul_succ]; omega), hn]
      rw [show n * (i + 1) + j - n = n * i + j by rw [Nat.mul_succ]; omega, ih]
      simp

/-- The phase `ph` of bit `b` of channel slot `s` of LED `i` in a frame (30_encoding.md R98, 41_encode.md R143). -/
theorem getElem?_buildFrame (p : Params) (t : Table) (en : Bool) (snap : Memory) (i s b ph : Nat) (px : Color)
    (hi : snap[i]? = some px) (hs : s < 3) (hb : b < 8) (hph : ph < 2) :
    (buildFrame p t en snap)[48 * i + 16 * s + 2 * (7 - b) + ph]?
      = (sym t (wireBit p (sentColor p en px) s b))[ph]? := by
  have hil : i < snap.length := (List.getElem?_eq_some_iff.mp hi).1
  have hsl : s < p.channelOrder.slots.length := by rw [ChannelOrder.length_slots]; exact hs
  have hslot : p.channelOrder.slots[s]? = some p.channelOrder.slots[s] := List.getElem?_eq_getElem hsl
  unfold buildFrame
  rw [List.getElem?_append_left (by simp [List.length_flatMap, length_sym, length_frameBits]; omega),
    show 48 * i + 16 * s + 2 * (7 - b) + ph = 2 * (24 * i + (8 * s + (7 - b))) + ph by omega,
    getElem?_flatMap_blocks (sym t) 2 (length_sym t) _ _ _ hph]
  unfold frameBits
  rw [getElem?_flatMap_blocks _ 24 (fun _ => length_wireBits p _) _ _ _ (by omega), hi]
  simp only [Option.bind_some, wireBits]
  rw [getElem?_flatMap_blocks _ 8 length_byteBits _ _ _ (by omega)]
  simp only [wireBytes, wireBit, List.getElem?_map, hslot, Option.map_some, Option.bind_some, byteBits]
  interval_cases b <;> simp

end Sys2Proof.Machine
end

