-- ==== Sys2Proof/Laws/Fairness.lean ====
section
/-! SUPPORT. The laws of executions: what a move does where its agent has no step, and how a move of an execution is a
`step`. -/

namespace Sys2Proof.Machine

theorem Move.isTxOf_iff (k : Nat) (m : Move) : Move.isTxOf k m = true ↔ Move.agent m = some (.tx k) := by
  cases m <;> simp [Move.isTxOf, Move.agent]

/-- A move of an execution is a step of the same machine with that move listed first. -/
theorem step_withMove (m : Move) (s : State) :
    step { s with moves := m :: s.moves.tail } = runMove m s.advance := rfl

/-- An agent is enabled, or not, whatever moves are listed. -/
theorem State.enabled_advance (s : State) (a : Agent) : s.advance.enabled a ↔ s.enabled a := by
  cases a <;> rfl

/-- A transmitter without a step leaves the machine as it is. -/
theorem txMove_of_not_enabled {s : State} {k : Nat} (d : Draw) (r : TxResult) (h : ¬ s.enabled (.tx k)) :
    txMove k d r s = .next s := by
  unfold txMove
  split
  · rename_i c hc
    exact if_neg fun ha => h ⟨c, hc, ha⟩
  · rfl

/-- A host without a step leaves the machine as it is, or its access is one the bus does not take and the machine stops. -/
theorem hostMove_of_not_enabled {s : State} {k : Nat} (h : ¬ s.enabled (.host k)) :
    hostMove k s = .next s ∨ ∃ f, hostMove k s = .fault f := by
  unfold hostMove
  split
  · exact .inl rfl
  · rename_i c hc
    split
    · exact .inl rfl
    · rename_i hh
      split
      · exact .inl rfl
      · rename_i a rest hp
        split
        · exact .inr ⟨_, rfl⟩
        · rename_i off ho
          split
          · exact .inl rfl
          · rename_i hb
            exact absurd ⟨c, a, rest, off, hc, by simpa using hh, by simpa using hb, hp, ho⟩ h

/-- An active transmitter that moves takes its step. -/
theorem runMove_tx {s : State} {k : Nat} {d : Draw} {r : TxResult} {c : Channel} (hc : s.chan? k = some c)
    (ha : c.tx.active = true) : runMove (.tx k d r) s.advance = .next (s.advance.putChan k (c.txStep d r)) :=
  step_tx (s := { s with moves := .tx k d r :: s.moves.tail }) rfl hc ha

end Sys2Proof.Machine
end

