-- ==== Sys2Proof/Laws/PerInstr.lean ====
section
/-! SUPPORT. The statements made of every command as syntax, one lemma a constructor. -/

namespace Sys2Proof.Laws.OneWord

/-- A command is carried as one 32-bit word, and decoding takes exactly it, whatever bytes follow
(30_encoding.md R94). -/
def Statement (i : Instr) : Prop :=
  (encodeBytes i).length = 4 ∧
    ∀ rest, ∃ j, decodeBytes (encodeBytes i ++ rest) = .ok (j, rest)

theorem nop : Statement .nop := ⟨rfl, fun _ => ⟨_, rfl⟩⟩
theorem tblInit : Statement .tblInit := ⟨rfl, fun _ => ⟨_, rfl⟩⟩
theorem pixWr : Statement .pixWr := ⟨rfl, fun _ => ⟨_, rfl⟩⟩
theorem pixRd : Statement .pixRd := ⟨rfl, fun _ => ⟨_, rfl⟩⟩
theorem pixFill : Statement .pixFill := ⟨rfl, fun _ => ⟨_, rfl⟩⟩
theorem pixClr : Statement .pixClr := ⟨rfl, fun _ => ⟨_, rfl⟩⟩
theorem encode : Statement .encode := ⟨rfl, fun _ => ⟨_, rfl⟩⟩
theorem xmit : Statement .xmit := ⟨rfl, fun _ => ⟨_, rfl⟩⟩
theorem cycle : Statement .cycle := ⟨rfl, fun _ => ⟨_, rfl⟩⟩
theorem clrStat : Statement .clrStat := ⟨rfl, fun _ => ⟨_, rfl⟩⟩
theorem illegal (word : Word) : Statement (.illegal word) := ⟨rfl, fun _ => ⟨_, rfl⟩⟩

end Sys2Proof.Laws.OneWord
end

