-- ==== Sys2Proof/Tests/Slice0.lean ====
section
/-! SUPPORT. The model's own tests. Their expected values are those of spec/95_test_vectors.md (the vector is named in the
docstring), of the examples of the rules, or computed by hand from the rule cited. Then one witness for the hypotheses
of each statement of Sys2Proof/Certificates/Slice0/Obligations.lean. -/

namespace Sys2Proof.Tests

open Sys2Proof Sys2Proof.Machine

/-! Small states -/

/-- The defaults with `n` LEDs. -/
def par (n : Nat) : Params := { Config.params with n := n }

/-- Table80 of 95_test_vectors.md. -/
def table80 : Table := ⟨true, 80000000, 28, 64, 56, 48, 4000⟩

/-- A channel at reset. -/
def chan0 (p : Params) : Channel := Channel.reset p

/-- A machine of one channel. -/
def one (p : Params) (t : Table) (c : Channel) : State := { State.resetWith p with tbl := t, chans := [c] }

/-- A machine of one channel whose host issues an access next. -/
def bus (p : Params) (t : Table) (c : Channel) (a : Access) : State :=
  { one p t { c with host := { c.host with prog := [a] } } with moves := [.host 0] }

/-- A 32-bit read. -/
def rd (addr : Word) : Access := ⟨addr, .w32, .read⟩

/-- A 32-bit write. -/
def wr (addr v : Word) : Access := ⟨addr, .w32, .write v⟩

/-- Channel 0 of a next state. -/
def chanOf : Host.Outcome State Fault Refusal → Option Channel
  | .next s => s.chan? 0
  | .fault _ => none
  | .refused _ => none

/-- The table of a next state. -/
def tableOfNext : Host.Outcome State Fault Refusal → Option Table
  | .next s => some s.tbl
  | .fault _ => none
  | .refused _ => none

/-- STATUS of channel 0 of a next state. -/
def statusOf : Host.Outcome State Fault Refusal → Option Word
  | .next s => (s.chan? 0).map (statusWord s.tbl)
  | .fault _ => none
  | .refused _ => none

/-- What host 0 has read in a next state. -/
def inboxOf (o : Host.Outcome State Fault Refusal) : Option (List Word) := (chanOf o).map fun c => c.host.inbox

/-- The fault of a stop. -/
def faultOf : Host.Outcome State Fault Refusal → Option Fault
  | .next _ => none
  | .fault f => some f
  | .refused _ => none

/-- A channel with one white LED held as a frame of Table80, not yet handed over. -/
def framed : Channel :=
  { chan0 (par 1) with
    pix := [0xFFFFFF], frame := buildFrame (par 1) table80 false [0xFFFFFF], frameClk := 80000000
    frameValid := true, frameLen := 49 }

/-- A channel whose transmitter has sent `n` pulses of that frame. -/
def sending (n : Nat) : Channel :=
  { chan0 (par 1) with
    pix := [0xFFFFFF], frameClk := 80000000, frameLen := 49, busy := true
    tx := ⟨true, buildFrame (par 1) table80 false [0xFFFFFF], 80000000, n, if n = 0 then .low else .high⟩
    stream := ((buildFrame (par 1) table80 false [0xFFFFFF]).take n).map fun q => ⟨q, 80000000⟩
    host := ⟨true, [], []⟩ }

/-! Well-formed terms -/

/-- `illegal` never carries the word of a command (30_encoding.md R95): refused. -/
theorem test_wf_refuses_illegal_of_a_command : (Instr.illegal 0x5).wf = false ∧ (Instr.illegal 0x9).wf = false := by
  decide

/-- R95: an `op` in `0xA .. 0xF`, or a bit above `op`. -/
theorem test_wf_of_reserved_words :
    (Instr.illegal 0xA).wf = true ∧ (Instr.illegal 0x10).wf = true ∧ (Instr.illegal 0x80000007).wf = true := by
  decide

/-! Decoding, from the words of 30_encoding.md R91 and R95 bit by bit -/

theorem test_decode_nop : decodeWord 0b00000000000000000000000000000000 = .nop := by decide
theorem test_decode_tblInit : decodeWord 0b00000000000000000000000000000001 = .tblInit := by decide
theorem test_decode_pixWr : decodeWord 0b00000000000000000000000000000010 = .pixWr := by decide
theorem test_decode_pixRd : decodeWord 0b00000000000000000000000000000011 = .pixRd := by decide
theorem test_decode_pixFill : decodeWord 0b00000000000000000000000000000100 = .pixFill := by decide
theorem test_decode_pixClr : decodeWord 0b00000000000000000000000000000101 = .pixClr := by decide
theorem test_decode_encode : decodeWord 0b00000000000000000000000000000110 = .encode := by decide
theorem test_decode_xmit : decodeWord 0b00000000000000000000000000000111 = .xmit := by decide
theorem test_decode_cycle : decodeWord 0b00000000000000000000000000001000 = .cycle := by decide
theorem test_decode_clrStat : decodeWord 0b00000000000000000000000000001001 = .clrStat := by decide

/-- R95: the first reserved `op`, the last, and words whose low bits are a command's. -/
theorem test_decode_illegal :
    decodeWord 0b00000000000000000000000000001010 = .illegal 0x0000000A ∧
    decodeWord 0b00000000000000000000000000001111 = .illegal 0x0000000F ∧
    decodeWord 0b00000000000000000000000000010001 = .illegal 0x00000011 ∧
    decodeWord 0b10000000000000000000000000000111 = .illegal 0x80000007 := by
  decide

/-- The host's numbering of a table word: bit 0 is the word's least significant bit; absent bits are 0. -/
theorem test_decodeTableWord :
    decodeTableWord 32 0x00000008 = some .cycle ∧ decodeTableWord 8 0x106 = some .encode ∧
    decodeTableWord 32 0x80000007 = some (.illegal 0x80000007) := by
  decide

/-- Fewer than four bytes are no command word (R94). -/
theorem test_decode_truncated : decodeBytes [1, 0, 0] = .error (.truncated 3) := by rfl

/-- V-BUS-8 (20_memory.md R64). -/
theorem test_byte_lanes : wordBytes 80000000 = [0x00, 0xB4, 0xC4, 0x04] := by decide

/-! The commands, at most two tests each -/

/-- V-CTL-1. -/
theorem test_nop :
    statusOf (exec .nop (one (par 1) table80 { chan0 (par 1) with xmitErr := true, errCode := .noFrame }))
      = some 0x441 := by
  decide

/-- V-TBL-1. -/
theorem test_tblInit_installs :
    tableOfNext (exec .tblInit (one (par 1) Table.reset { chan0 (par 1) with clkHz := 80000000 })) = some table80 ∧
    statusOf (exec .tblInit (one (par 1) Table.reset { chan0 (par 1) with clkHz := 80000000 })) = some 0x001 := by
  decide

/-- V-TBL-2, V-TBL-5, V-TBL-8, V-TBL-14. -/
theorem test_tblInit_other_ends :
    statusOf (exec .tblInit (one (par 1) table80 { chan0 (par 1) with clkHz := 0 })) = some 0x009 ∧
    statusOf (exec .tblInit (one (par 1) Table.reset (chan0 (par 1)))) = some 0x110 ∧
    statusOf (exec .tblInit (one (par 1) Table.reset { chan0 (par 1) with clkHz := 2000000 })) = some 0x210 ∧
    statusOf (exec .tblInit (one (par 1) Table.reset { chan0 (par 1) with clkHz := 0xFFFFFFFF })) = some 0x210 := by
  decide

/-- V-PIX-1. -/
theorem test_pixWr_in_range :
    (chanOf (exec .pixWr (one (par 3) Table.reset { chan0 (par 3) with pixIdx := 1, pixData := 0xFF8000 }))).map
      Channel.pix = some [0x000000, 0xFF8000, 0x000000] := by
  decide

/-- V-PIX-2 and V-PIX-3. -/
theorem test_pixWr_out_of_range :
    (chanOf (exec .pixWr (one (par 3) Table.reset { chan0 (par 3) with pixIdx := 3, pixData := 0x123456 }))).map
      Channel.pix = some [0, 0, 0] ∧
    (chanOf (exec .pixWr (one (par 3) Table.reset { chan0 (par 3) with pixIdx := 0xFFFFFFFF, pixData := 1 }))).map
      Channel.pix = some [0, 0, 0] := by
  decide

/-- V-PIX-4. -/
theorem test_pixRd_in_range :
    (chanOf (exec .pixRd (one (par 3) Table.reset { chan0 (par 3) with pixIdx := 1, pix := [0, 0xFF8000, 0] }))).map
      Channel.pixData = some 0xFF8000 := by
  decide

/-- V-PIX-5. -/
theorem test_pixRd_out_of_range :
    (chanOf (exec .pixRd (one (par 3) Table.reset { chan0 (par 3) with pixIdx := 7, pixData := 0xFF8000 }))).map
      Channel.pixData = some 0xFF8000 := by
  decide

/-- V-PIX-7. -/
theorem test_pixFill :
    (chanOf (exec .pixFill (one (par 3) Table.reset { chan0 (par 3) with pixData := 0xFFFFFF }))).map Channel.pix
      = some [0xFFFFFF, 0xFFFFFF, 0xFFFFFF] := by
  decide

/-- V-PIX-8. -/
theorem test_pixClr :
    (chanOf (exec .pixClr (one (par 2) Table.reset { chan0 (par 2) with pix := [1, 2], pixData := 0xFFFFFF }))).map
      (fun c => (c.pix, c.pixData)) = some ([0, 0], 0xFFFFFF) := by
  decide

/-- V-ENC-10: attenuated in place and sent in the order G, R, B; 49 pulses. The bits are those of 0x41, 0x02, 0x80. -/
theorem test_encode_attenuates :
    (chanOf (exec .encode (one (par 1) table80 { chan0 (par 1) with pix := [0x0381FF] }))).map
      (fun c => (c.pix, c.frameLen, c.frameClk)) = some ([0x024180], 49, 80000000) ∧
    frameBits (par 1) true [0x0381FF] = [false, true, false, false, false, false, false, true,
      false, false, false, false, false, false, true, false, true, false, false, false, false, false, false, false] ∧
    statusOf (exec .encode (one (par 1) table80 { chan0 (par 1) with pix := [0x0381FF] })) = some 0x003 := by
  decide

/-- V-ENC-2 (41_encode.md R143, 30_encoding.md R99): ATTEN_EN = 0, pulses 0, 1, 4 and 48; V-ENC-13: no table. -/
theorem test_encode_pulses :
    ((chanOf (exec .encode (one (par 1) table80 { chan0 (par 1) with attenEn := false, pix := [0x123456] }))).map
      fun c => [c.frame[0]?, c.frame[1]?, c.frame[4]?, c.frame[48]?])
      = some [some ⟨28, .high⟩, some ⟨64, .low⟩, some ⟨56, .high⟩, some ⟨4000, .low⟩] ∧
    statusOf (exec .encode (one (par 3) Table.reset (chan0 (par 3)))) = some 0x320 := by
  decide

/-- V-XMT-7: after the hand-over STATUS is 0x005 and the host is held. -/
theorem test_xmit_hands_over :
    statusOf (exec .xmit (one (par 1) table80 framed)) = some 0x005 ∧
    (chanOf (exec .xmit (one (par 1) table80 framed))).map
      (fun c => (c.host.held, c.tx.active, c.tx.frame.length, c.tx.clk, c.frameLen))
      = some (true, true, 49, 80000000, 49) := by
  decide

/-- V-XMT-3. -/
theorem test_xmit_without_frame :
    statusOf (exec .xmit (one (par 1) table80 (chan0 (par 1)))) = some 0x441 := by
  decide

/-- V-XMT-9. -/
theorem test_cycle_without_table :
    statusOf (exec .cycle (one (par 1) Table.reset (chan0 (par 1)))) = some 0x320 ∧
    (chanOf (exec .cycle (one (par 1) Table.reset (chan0 (par 1))))).map (fun c => c.host.held) = some false := by
  decide

/-- Program P2, cycle 1, for one LED (attenuation in place) and V-XMT-8 (XMIT_ERR cleared, ERR_CODE kept), up to the hand-over. -/
theorem test_cycle_hands_over :
    (chanOf (exec .cycle (one (par 1) table80
      { chan0 (par 1) with pix := [0xFFFFFF], xmitErr := true, errCode := .xmitFail }))).map
      (fun c => (c.pix, c.tx.frame.length, c.frameLen)) = some ([0x808080], 49, 49) ∧
    statusOf (exec .cycle (one (par 1) table80
      { chan0 (par 1) with pix := [0xFFFFFF], xmitErr := true, errCode := .xmitFail }))
      = some 0x505 := by
  decide

/-- V-CTL-3 and V-CTL-4. -/
theorem test_clrStat :
    statusOf (exec .clrStat (one (par 1) table80
      { chan0 (par 1) with dupWarn := true, xmitErr := true, errCode := .xmitFail })) = some 0x001 ∧
    statusOf (exec .clrStat (one (par 1) table80 framed)) = some 0x003 := by
  decide

/-- V-CTL-6: the low bits of an illegal word do not run. -/
theorem test_illegal_low_bits :
    statusOf (exec (decodeWord 0x11) (one (par 1) Table.reset { chan0 (par 1) with clkHz := 80000000 }))
      = some 0x680 := by
  decide

/-- V-CTL-7. -/
theorem test_illegal_keeps_the_frame :
    statusOf (exec (decodeWord 0x80000007) (one (par 1) table80 framed)) = some 0x683 := by
  decide

/-! The bus -/

/-- V-BUS-5, V-BUS-6, V-BUS-7. -/
theorem test_stuck_accesses :
    faultOf (step (bus (par 1) table80 (chan0 (par 1)) ⟨0x08, .w8, .read⟩)) = some .wrongWidth ∧
    faultOf (step (bus (par 1) table80 (chan0 (par 1)) (rd 0x0A))) = some .misaligned ∧
    faultOf (step (bus (par 1) table80 (chan0 (par 1)) (rd 0x40))) = some .unmapped ∧
    faultOf (step (bus { par 1 with k := 2 } table80 (chan0 (par 1)) (rd 0x44))) = some .foreignBank := by
  decide

/-- V-TBL-1: the table views. -/
theorem test_table_views :
    inboxOf (step (bus (par 1) table80 (chan0 (par 1)) (rd 0x20))) = some [0x0040001C] ∧
    inboxOf (step (bus (par 1) table80 (chan0 (par 1)) (rd 0x24))) = some [0x00300038] ∧
    inboxOf (step (bus (par 1) table80 (chan0 (par 1)) (rd 0x28))) = some [0x00000FA0] ∧
    inboxOf (step (bus (par 1) table80 (chan0 (par 1)) (rd 0x2C))) = some [0x04C4B400] := by
  decide

/-- V-BUS-1, V-BUS-3 and V-PIX-10 (LED_COUNT with the pad). -/
theorem test_reads :
    inboxOf (step (bus (par 1) table80 (chan0 (par 1)) (rd 0x00))) = some [0] ∧
    inboxOf (step (bus (par 1) table80 (chan0 (par 1)) (rd 0x3C))) = some [0] ∧
    inboxOf (step (bus { par 2 with padExtraLed := true } table80 (chan0 (par 3)) (rd 0x10))) = some [3] := by
  decide

/-- V-PIX-6, V-ENC-18 and V-BUS-2. -/
theorem test_writes :
    (chanOf (step (bus (par 1) table80 (chan0 (par 1)) (wr 0x18 0xAB123456)))).map Channel.pixData = some 0x123456 ∧
    (chanOf (step (bus (par 1) table80 (chan0 (par 1)) (wr 0x08 0xFFFFFFFE)))).map ctrlWord = some 0 ∧
    statusOf (step (bus (par 1) table80 (chan0 (par 1)) (wr 0x04 0xFFFFFFFF))) = some 0x001 := by
  decide

/-- The host's probe: the next step runs the placed word, from the reset state. V-CTL-8, and R191 with CLK_HZ = 0. -/
theorem test_withFetchWord :
    statusOf (step (State.reset.withFetchWord 32 0x0000000A)) = some 0x680 ∧
    statusOf (step (State.reset.withFetchWord 32 0x00000001)) = some 0x110 ∧
    statusOf (step (State.reset.withFetchWord 32 0x00000000)) = some 0x000 := by
  decide

/-! The transmitter -/

/-- 42_transmit.md R173: the first pulse of a white LED in Table80 is (56,H). -/
theorem test_tx_emits :
    (chanOf (step { one (par 1) table80 (sending 0) with moves := [.tx 0 .cont .ok] })).map
      (fun c => (c.stream, c.tx.line, c.tx.pos)) = some ([⟨⟨56, .high⟩, 80000000⟩], .high, 1) := by
  decide

/-- V-XMT-4 and V-XMT-6: FAIL in the middle, and FAIL as the second draw. -/
theorem test_tx_fails :
    statusOf (step { one (par 1) table80 (sending 10) with moves := [.tx 0 .fail .ok] }) = some 0x541 ∧
    statusOf (step { one (par 1) table80 (sending 49) with moves := [.tx 0 .cont .fail] }) = some 0x541 := by
  decide

/-- V-XMT-1, the result OK: STATUS 0x001, the line LOW, the host free, FRAME_LEN 49. -/
theorem test_tx_reports_ok :
    statusOf (step { one (par 1) table80 (sending 49) with moves := [.tx 0 .cont .ok] }) = some 0x001 ∧
    (chanOf (step { one (par 1) table80 (sending 49) with moves := [.tx 0 .cont .ok] })).map
      (fun c => (c.tx.line, c.host.held, c.frameLen)) = some (.low, false, 49) := by
  decide

/-! The assembler (30_encoding.md R100 to R102) -/

/-- R102's examples, a comment and an annotation. -/
theorem test_assembler_lines :
    Asm.readLine "WR  CLK_HZ@1, 40000000  ; H1" = some [.wr .clkHz 1 40000000] ∧
    Asm.readLine "RD STATUS -> 0x1" = some [.rd .status 0] ∧
    Asm.readLine "CMD TBL_INIT@1" = some [.cmd .tblInit 1] ∧
    Asm.readLine "WR CTRL, 4294967296" = none := by
  decide

/-- R101: a suffix applies to every line of the expansion. -/
theorem test_assembler_pseudo :
    Asm.readLine "SETPIX@2 1, 0xfF" = some [.wr .pixIdx 2 1, .wr .pixData 2 0xFF, .cmd .pixWr 2] ∧
    Asm.readLine "ATTEN off" = some [.wr .ctrl 0 0] := by
  decide

/-! Witnesses: for each statement with hypotheses, a state and operands that meet them all -/

/-- A machine with Table80 and a black LED. -/
def black : State := one (par 1) table80 (chan0 (par 1))

/-- A machine with no table. -/
def fresh : State := one (par 1) Table.reset (chan0 (par 1))

/-- A machine with three LEDs and the given PIX_IDX. -/
def atIndex (i : Word) : State := one (par 3) table80 { chan0 (par 3) with pixIdx := i, pixData := 0xFF8000 }

/-- A machine whose CLK_HZ is `clk`, with no table. -/
def withClock (clk : Word) : State := one (par 1) Table.reset { chan0 (par 1) with clkHz := clk }

/-- A machine whose transmitter has sent `n` of 49 pulses, with the moves listed. -/
def txState (n : Nat) (moves : List Move) : State := { one (par 1) table80 (sending n) with moves := moves }

theorem witness_DecodeOfEncode : Instr.nop.wf = true ∧ (Instr.illegal 0xA).wf = true ∧ (Instr.illegal 0xFFFFFFFF).wf = true := by
  decide

/-- A bad word of each kind at its smallest, 0x10 and 0xA, and the last good word, 9. -/
theorem witness_EveryWordIsOneCommandOrIllegal :
    ((0x10 : Word).extractLsb' 4 28 ≠ 0 ∧ decodeWord 0x10 = .illegal 0x10) ∧
    (0xA ≤ ((0xA : Word).extractLsb' 0 4).toNat ∧ decodeWord 0xA = .illegal 0xA) ∧
    ((9 : Word).extractLsb' 4 28 = 0 ∧ ((9 : Word).extractLsb' 0 4).toNat = 9 ∧ decodeWord 9 = .clrStat) := by
  decide

theorem witness_ByteLanes : 3 < 4 ∧ 7 < 8 ∧ (byteLane 0x80000000 3).getLsbD 7 = true := by decide

/-- The first channel and the last of 64; the largest NE of the bound. -/
theorem witness_ResetLeavesTheListedValues :
    0 < Config.params.k ∧ 63 < { par 0 with k := 64 }.k ∧ (par 0xFFFFFFFF).ne < 2 ^ 32 := by
  decide

/-- Legal parameters at the ends of their ranges, and one past an end. -/
theorem witness_ConstructionNeedsTheConstraints :
    { Config.params with t0hNs := 1, t1hNs := 999, tresetNs := 99999, k := 64, tickMax := 65535 }.ok = true ∧
    { Config.params with t1hNs := 1000 }.ok = false ∧ { Config.params with t1hNs := 350 }.ok = false ∧
    { Config.params with k := 65 }.ok = false ∧ { Config.params with tickMax := 0 }.ok = false := by
  decide

theorem witness_BlockResetRestoresEverything :
    { black with moves := [.reset] }.nextMove = .reset ∧ { black with moves := [.reset] }.chan? 0 = some (chan0 (par 1)) := by
  decide

/-- NopChangesNothing, ClrStatClearsBits3To11. -/
theorem witness_command_on_a_channel : black.chan? black.cur = some (chan0 (par 1)) := by decide

/-- IllegalWordIsOnlyRecorded: both ways to be illegal, at their smallest. -/
theorem witness_IllegalWordIsOnlyRecorded :
    black.chan? black.cur = some (chan0 (par 1)) ∧ (0x10 : Word).extractLsb' 4 28 ≠ 0 ∧
    0xA ≤ ((0xA : Word).extractLsb' 0 4).toNat := by
  decide

/-- PixWrWritesOnePixel, PixRdReadsOnePixel: the last index in range, and the first out of range. -/
theorem witness_pixel_index :
    ((atIndex 2).chan? (atIndex 2).cur).map (fun c => (c.pix.length, c.pixIdx)) = some (3, 2) ∧
    ((atIndex 3).chan? (atIndex 3).cur).map (fun c => (c.pix.length, c.pixIdx)) = some (3, 3) ∧
    (2 : Word).toNat < (atIndex 2).par.ne ∧ (atIndex 3).par.ne ≤ (3 : Word).toNat := by
  decide

/-- PixFillSetsEveryPixel, PixClrRestoresTheBlackBuffer. -/
theorem witness_whole_buffer : ((atIndex 0).chan? (atIndex 0).cur).map (fun c => c.pix.length) = some (atIndex 0).par.ne := by
  decide

/-- The four clauses of TblInitInstallsOnceOrRecordsTheError; the last two on either side of `TICK_MAX = 4000` and of a
tick count 0 (43_table.md R195: t0h is 0 at 2 MHz under FLOOR, 1 under NEAREST). -/
theorem witness_TblInitInstallsOnceOrRecordsTheError :
    black.par.tickMax < 2 ^ 16 ∧ black.tbl.valid = true ∧ (withClock 0).tbl.valid = false ∧
    (tickList { par 1 with tickMax := 4000 } 80000000).all (tickOk { par 1 with tickMax := 4000 }) = true ∧
    (tickList { par 1 with tickMax := 3999 } 80000000).all (tickOk { par 1 with tickMax := 3999 }) = false ∧
    (tickList (par 1) 2000000).all (tickOk (par 1)) = false ∧
    (tickList { par 1 with tickRounding := .nearest } 2000000).all (tickOk { par 1 with tickRounding := .nearest }) = true := by
  decide

/-- EncodeWithoutTableFails, CycleWithoutTableFails. -/
theorem witness_no_table : fresh.chan? fresh.cur = some (chan0 (par 1)) ∧ fresh.tbl.valid = false := by decide

/-- EncodeWithTableBuildsTheFrame, CycleEncodesAndHandsOver, with the buffer rewritten and not. -/
theorem witness_table :
    black.chan? black.cur = some (chan0 (par 1)) ∧ black.tbl.valid = true ∧ 48 * black.par.ne + 1 < 2 ^ 32 ∧
    (chan0 (par 1)).attenEn = true ∧ black.par.attenInPlace = true ∧ (chan0 (par 1)).pix[0]? = some 0 := by
  decide

theorem witness_XmitWithoutFrameFails :
    black.chan? black.cur = some (chan0 (par 1)) ∧ (chan0 (par 1)).frameValid = false := by
  decide

theorem witness_XmitHandsTheFrameOver :
    (one (par 1) table80 framed).chan? (one (par 1) table80 framed).cur = some framed ∧ framed.frameValid = true := by
  decide

theorem witness_CycleIsEncodeThenXmit : black.tbl.valid = true ∧ ∃ t, exec .encode black = .next t := ⟨rfl, _, rfl⟩

/-- StatusCommandsFrame: each of its commands answers a next state, TBL_INIT with and without the table. -/
theorem witness_StatusCommandsFrame :
    black.chan? black.cur = some (chan0 (par 1)) ∧ (∃ t, exec .nop black = .next t) ∧ (∃ t, exec .clrStat black = .next t) ∧
    (∃ t, exec .tblInit black = .next t) ∧ (∃ t, exec .tblInit (withClock 80000000) = .next t) ∧
    (∃ t, exec (.illegal 0xA) black = .next t) :=
  ⟨rfl, ⟨_, rfl⟩, ⟨_, rfl⟩, ⟨_, rfl⟩, ⟨_, rfl⟩, ⟨_, rfl⟩⟩

/-- PixelCommandsFrame; an index beside PIX_IDX. -/
theorem witness_PixelCommandsFrame :
    (∃ c, (atIndex 2).chan? (atIndex 2).cur = some c ∧ 1 ≠ c.pixIdx.toNat) ∧ (∃ t, exec .pixWr (atIndex 2) = .next t) ∧
    (∃ t, exec .pixRd (atIndex 2) = .next t) ∧ (∃ t, exec .pixFill (atIndex 2) = .next t) ∧
    (∃ t, exec .pixClr (atIndex 2) = .next t) :=
  ⟨⟨_, rfl, by decide⟩, ⟨_, rfl⟩, ⟨_, rfl⟩, ⟨_, rfl⟩, ⟨_, rfl⟩⟩

/-- EncodeAndTransmitFrame, CommandReachesOnlyItsChannel. -/
theorem witness_command_ends_in_a_next_state :
    black.chan? black.cur = some (chan0 (par 1)) ∧ (∃ t, exec .encode black = .next t) ∧ (∃ t, exec .xmit black = .next t) ∧
    (∃ t d, exec .cycle black = .next t ∧ t.chan? black.cur = some d) ∧ fresh.tbl.valid = false ∧
    (∃ t, exec .encode fresh = .next t) :=
  ⟨rfl, ⟨_, rfl⟩, ⟨_, rfl⟩, ⟨_, _, rfl, rfl⟩, rfl, ⟨_, rfl⟩⟩

/-- ErrCodeIsTheLatestError: each command that meets an error, over the code of an earlier one (code 6); TBL_INIT with
CLK_HZ 0 and with a tick count 0 (V-TBL-8). -/
theorem witness_ErrCodeIsTheLatestError :
    let bad := fun (clk : Word) => one (par 1) Table.reset { chan0 (par 1) with clkHz := clk, errCode := .illegalCmd }
    (∀ clk, ∃ c, (bad clk).chan? (bad clk).cur = some c ∧ (bad clk).tbl.valid = false ∧ c.frameValid = false) ∧
    (chanOf (exec .tblInit (bad 0))).map Channel.errCode = some .noClock ∧
    (chanOf (exec .tblInit (bad 2000000))).map Channel.errCode = some .tickRange ∧ 0 ∈ tickList (par 1) 2000000 ∧
    (chanOf (exec .encode (bad 0))).map Channel.errCode = some .encNoTable ∧
    (chanOf (exec .cycle (bad 0))).map Channel.errCode = some .encNoTable ∧
    (chanOf (exec .xmit (bad 0))).map Channel.errCode = some .noFrame ∧
    (chanOf (exec (.illegal 0xA) fresh)).map Channel.errCode = some .illegalCmd :=
  ⟨fun _ => ⟨_, rfl, rfl, rfl⟩, by decide, by decide, by decide, by decide, by decide, by decide, by decide⟩

/-- CommandReachesOnlyItsChannel on a machine with another channel, and where the table changes. -/
theorem witness_CommandReachesOnlyItsChannel :
    let s := { withClock 80000000 with chans := [{ chan0 (par 1) with clkHz := 80000000 }, chan0 (par 1)] }
    ∃ t, exec .tblInit s = .next t ∧ 1 ≠ s.cur ∧ t.tbl ≠ s.tbl :=
  ⟨_, rfl, by decide, by decide⟩

theorem witness_HalfLaws : (1 : Byte).toNat ≤ (255 : Byte).toNat := by decide

theorem witness_RepeatedHalvingDecays : 8 ≤ 8 ∧ (255 : Byte) ≠ 0 := by decide

/-- PulseIsWhereItsPositionSays: the first position and the last. -/
theorem witness_PulseIsWhereItsPositionSays : 0 ≤ 48 * [(0 : Color)].length ∧ 48 ≤ 48 * [(0 : Color)].length := by decide

/-- WireOrderIsLedSlotBitPhase: the first slot and the last, bits 7 and 0. -/
theorem witness_WireOrderIsLedSlotBitPhase :
    [(0x123456 : Color)][0]? = some 0x123456 ∧ (par 1).channelOrder.slots[0]? = some .green ∧
    (par 1).channelOrder.slots[2]? = some .blue ∧ 7 < 8 ∧ 0 < 8 := by
  decide

theorem witness_BlackBufferGivesZeroSymbols :
    black.chan? black.cur = some (chan0 (par 1)) ∧ black.tbl.valid = true ∧
    (chan0 (par 1)).pix = List.replicate black.par.ne 0 := by
  decide

theorem witness_WhiteBufferGivesOneSymbols :
    let c := { chan0 (par 1) with pix := [0xFFFFFF] }
    let s := one (par 1) table80 c
    s.chan? s.cur = some c ∧ s.tbl.valid = true ∧ c.pix = List.replicate s.par.ne 0xFFFFFF := by
  decide

theorem witness_parameters_are_legal : Config.params.ok = true ∧ (par 0).ok = true ∧ (par 1).ok = true := by decide

/-- FrameDependsOnlyOnItsInputs: two machines that differ in another register. -/
theorem witness_FrameDependsOnlyOnItsInputs :
    let c := { chan0 (par 1) with clkHz := 7 }
    (black.chan? black.cur = some (chan0 (par 1)) ∧ (one (par 1) table80 c).chan? 0 = some c ∧
      (chan0 (par 1)).pix = c.pix ∧ (chan0 (par 1)).attenEn = c.attenEn) ∧
    (∃ t d, exec .encode black = .next t ∧ t.chan? 0 = some d) ∧
    (∃ t d, exec .encode (one (par 1) table80 c) = .next t ∧ t.chan? 0 = some d) :=
  ⟨by decide, ⟨_, _, rfl, rfl⟩, ⟨_, _, rfl, rfl⟩⟩

/-- FrameIsASnapshot: a step in which the held frame changes, by the host's ENCODE. -/
theorem witness_FrameIsASnapshot :
    ∃ t d, step (bus (par 1) table80 (chan0 (par 1)) (wr 0 6)) = .next t ∧ t.chan? 0 = some d ∧
      d.frame ≠ (chan0 (par 1)).frame :=
  ⟨_, _, rfl, rfl, by decide⟩

theorem witness_QuantisationOfAPhase : 0 < 1 := by decide

/-- TableIsWrittenOnceUntilReset: a step in which the table changes, by the host's TBL_INIT. -/
theorem witness_TableIsWrittenOnceUntilReset :
    let s := bus (par 1) Table.reset { chan0 (par 1) with clkHz := 80000000 } (wr 0 1)
    ∃ t, step s = .next t ∧ t.tbl ≠ s.tbl ∧ s.nextMove ≠ .reset :=
  ⟨_, rfl, by decide, by decide⟩

theorem witness_TransmitterEmitsTheNextPulse :
    let s := txState 0 [.tx 0 .cont .ok]
    s.nextMove = .tx 0 .cont .ok ∧ s.chan? 0 = some (sending 0) ∧ (sending 0).tx.active = true ∧
    (sending 0).tx.frame[(sending 0).tx.pos]? = some ⟨56, .high⟩ := by
  decide

/-- TransmitterReportsItsResult: FAIL drawn before the end, and CONT at the end. -/
theorem witness_TransmitterReportsItsResult :
    ((txState 48 [.tx 0 .fail .ok]).nextMove = .tx 0 .fail .ok ∧
      (txState 48 [.tx 0 .fail .ok]).chan? 0 = some (sending 48) ∧ (sending 48).tx.active = true) ∧
    ((txState 49 [.tx 0 .cont .ok]).chan? 0 = some (sending 49) ∧ (sending 49).tx.active = true ∧
      (sending 49).tx.frame.length ≤ (sending 49).tx.pos) := by
  decide

/-- The channel of `sending` is sound before its first pulse and after its last high one. -/
theorem sending_sound : ∀ n ∈ [0, 49 - 2], (sending n).Sound (par 1) table80 := by
  intro n hn
  have hp : (sending n).tx.pos = n := rfl
  constructor
  case pulsesInRange =>
    intro q hq
    have h : ∀ q ∈ buildFrame (par 1) table80 false [0xFFFFFF], 1 ≤ q.ticks ∧ q.ticks ≤ (par 1).tickMax := by decide
    simp only [List.mem_cons, List.not_mem_nil, or_false] at hn
    rcases hn with rfl | rfl <;>
      · simp only [sending, chan0, Channel.reset, List.nil_append, List.map_map, Function.comp_def, List.map_id',
          List.mem_append] at hq
        rcases hq with hq | hq
        · exact h q hq
        · exact h q (List.mem_of_mem_take hq)
  all_goals
    simp only [List.mem_cons, List.not_mem_nil, or_false] at hn
    rcases hn with rfl | rfl <;> decide

/-- Table80 is the table of its own clock rate. -/
theorem table80_sound : Table.Sound (par 1) table80 := ⟨nofun, fun _ => rfl⟩

/-- A machine with Table80 and a transmission under way is sound. -/
theorem txState_sound : ∀ n ∈ [0, 49 - 2], ∀ moves, (txState n moves).Sound := by
  intro n hn moves
  refine ⟨witness_parameters_are_legal.2.2, rfl, table80_sound, ?_⟩
  intro c hc
  obtain rfl := List.mem_singleton.mp hc
  exact sending_sound n hn

theorem witness_OkMeansTheWholeFrameWasEmitted :
    let s := txState 47 [.tx 0 .fail .ok]
    s.Sound ∧ s.nextMove = .tx 0 .fail .ok ∧ s.chan? 0 = some (sending 47) ∧ (sending 47).tx.active = true ∧
    ∃ t e, step s = .next t ∧ t.chan? 0 = some e ∧ e.tx.active = false :=
  ⟨txState_sound 47 (by decide) _, rfl, rfl, rfl, _, _, rfl, rfl, rfl⟩

/-- An idle channel that sent its whole frame of one pulse (NE = 0), about to report. -/
def lastStep : Channel :=
  { chan0 (par 0) with
    frameClk := 80000000, frameLen := 1, busy := true
    tx := ⟨true, [⟨4000, .low⟩], 80000000, 1, .low⟩
    stream := [⟨⟨4000, .low⟩, 80000000⟩]
    host := ⟨true, [], []⟩ }

/-- The same machine, for the result OK of that statement. -/
theorem witness_OkMeansTheWholeFrameWasEmitted_ok :
    let s := { one (par 0) table80 lastStep with moves := [.tx 0 .cont .ok] }
    s.Sound ∧ s.chan? 0 = some lastStep ∧ lastStep.tx.active = true ∧
    ∃ t e, step s = .next t ∧ t.chan? 0 = some e ∧ e.tx.active = false := by
  refine ⟨⟨by decide, rfl, ⟨nofun, fun _ => rfl⟩, ?_⟩, rfl, rfl, _, _, rfl, rfl, rfl⟩
  intro c hc
  obtain rfl := List.mem_singleton.mp hc
  constructor
  case pulsesInRange =>
    intro q hq
    have h : ∀ q ∈ [(⟨4000, .low⟩ : Pulse), ⟨4000, .low⟩], 1 ≤ q.ticks ∧ q.ticks ≤ (par 0).tickMax := by decide
    exact h q hq
  all_goals decide

/-- FailAdmitsEveryPrefix: none of the frame, and all of it. -/
theorem witness_FailAdmitsEveryPrefix :
    ((txState 0 [.tx 0 .fail .ok]).chan? 0 = some (sending 0) ∧ (sending 0).tx.active = true ∧ (sending 0).tx.pos = 0 ∧
      0 ≤ (sending 0).tx.frame.length ∧
      (txState 0 [.tx 0 .fail .ok]).moves = List.replicate 0 (.tx 0 .cont .ok) ++ [.tx 0 .fail .ok]) ∧
    49 ≤ (sending 0).tx.frame.length := by
  decide

/-- FailureIsFatalToTheCycleOnly: FAIL drawn on the way, and as the result at the end; a command is the host's next access. -/
theorem witness_FailureIsFatalToTheCycleOnly :
    (let c := { sending 10 with host := ⟨true, [wr 0x00 8], []⟩ }
     let s := { one (par 1) table80 c with moves := [.tx 0 .fail .ok, .host 0] }
     s.nextMove = .tx 0 .fail .ok ∧ s.chan? 0 = some c ∧ c.tx.active = true ∧ admission s.par 0 (wr 0x00 8) = .ok 0x00 ∧
     ∃ t e, step s = .next t ∧ t.chan? 0 = some e ∧ t.nextMove = .host 0) ∧
    (let s := txState 49 [.tx 0 .cont .fail]
     s.nextMove = .tx 0 .cont .fail ∧ s.chan? 0 = some (sending 49) ∧ (sending 49).tx.active = true ∧
     (sending 49).tx.frame.length ≤ (sending 49).tx.pos ∧ ∃ t e, step s = .next t ∧ t.chan? 0 = some e) :=
  ⟨⟨rfl, rfl, rfl, rfl, _, _, rfl, rfl, rfl⟩, rfl, rfl, rfl, by decide, _, _, rfl, rfl⟩

/-- TransmissionCompletesInBoundedSteps: 50 moves of the transmitter, and moves of its host among them. -/
theorem witness_TransmissionCompletes :
    let s := txState 0 (List.replicate 50 (.tx 0 .cont .ok) ++ [.host 0])
    s.Sound ∧ s.ProgramsAdmitted ∧ s.chan? 0 = some (sending 0) ∧ (sending 0).host.held = true ∧
    48 * s.par.ne + 2 ≤ s.moves.countP (Move.isTxOf 0) := by
  refine ⟨txState_sound 0 (by decide) _, ?_, rfl, rfl, by decide⟩
  intro k c hc
  have : c ∈ [sending 0] := List.mem_of_getElem? hc
  obtain rfl := List.mem_singleton.mp this
  intro a ha
  cases ha

/-- An execution of a channel with no LED: the frame's one pulse, the result OK, and then nothing more. -/
def fairRun (n : Nat) : State :=
  { one (par 0) table80 (match n with
      | 0 => { lastStep with tx := { lastStep.tx with pos := 0 }, stream := [] }
      | 1 => lastStep
      | _ => { lastStep with busy := false, tx := { lastStep.tx with active := false }, host := HostAgent.reset }) with
    count := n }

/-- The moves of `fairRun`: the transmitter's, for ever. -/
def fairMoves (_ : Nat) : Move := .tx 0 .cont .ok

theorem fairRun_isExecution : IsExecution fairRun fairMoves := fun n =>
  match n with
  | 0 => rfl
  | 1 => rfl
  | _ + 2 => rfl

theorem fairRun_weaklyFair : WeaklyFair fairRun fairMoves := by
  intro a n h
  have only : ∀ {k c}, (fairRun n).chan? k = some c → k = 0 := fun hc => Nat.lt_one_iff.mp (State.chan?_lt hc)
  cases a with
  | tx k =>
    obtain ⟨c, hc, -⟩ := h n (Nat.le_refl n)
    exact ⟨n, Nat.le_refl n, by rw [only hc]; rfl⟩
  | host k =>
    obtain ⟨c, a, rest, off, hc, -, -, hp, -⟩ := h n (Nat.le_refl n)
    obtain rfl := only hc
    match n, hc with
    | 0, hc => cases hc; cases hp
    | 1, hc => cases hc; cases hp
    | _ + 2, hc => cases hc; cases hp

/-- HeldHostIsReleasedUnderWeakFairness. -/
theorem witness_HeldHostIsReleasedUnderWeakFairness :
    IsExecution fairRun fairMoves ∧ WeaklyFair fairRun fairMoves ∧ (fairRun 0).Sound ∧
    ∃ c, (fairRun 0).chan? 0 = some c ∧ c.host.held = true := by
  refine ⟨fairRun_isExecution, fairRun_weaklyFair, ⟨by decide, rfl, ⟨nofun, fun _ => rfl⟩, ?_⟩, _, rfl, rfl⟩
  intro c hc
  obtain rfl := List.mem_singleton.mp hc
  constructor
  case pulsesInRange =>
    intro q hq
    have h : ∀ q ∈ [(⟨4000, .low⟩ : Pulse)], 1 ≤ q.ticks ∧ q.ticks ≤ (par 0).tickMax := by decide
    exact h q hq
  all_goals decide

/-- AdmittedAccesses: the last slot of the last bank, and the first address past it. -/
theorem witness_AdmittedAccesses :
    admission { par 1 with k := 2 } 1 (rd 0x7C) = .ok 0x3C ∧ admission { par 1 with k := 2 } 0 (rd 0x3C) = .ok 0x3C ∧
    admission { par 1 with k := 2 } 2 (rd 0x80) = .error .unmapped ∧
    admission { par 1 with k := 2 } 0 (rd 0x40) = .error .foreignBank ∧
    admission { par 1 with k := 2 } 0 (rd 0x02) = .error .misaligned :=
  ⟨rfl, rfl, rfl, rfl, rfl⟩

/-- What a machine about to make the access `a` at offset `off` of bank 0 meets. -/
def Admitted (a : Access) (off : Nat) : Prop :=
  ∃ (s : State) (c : Channel) (rest : List Access), s.nextMove = .host 0 ∧ s.chan? 0 = some c ∧ c.host.held = false ∧ c.busy = false ∧
    c.host.prog = a :: rest ∧ admission s.par 0 a = .ok off

theorem admitted (a : Access) (off : Nat) (h : admission (par 1) 0 a = .ok off) : Admitted a off :=
  ⟨bus (par 1) table80 (chan0 (par 1)) a, _, [], rfl, rfl, rfl, rfl, rfl, h⟩

/-- ReadReturnsTheRegisterOnly: the first slot and the last. -/
theorem witness_ReadReturnsTheRegisterOnly : Admitted (rd 0x00) 0x00 ∧ Admitted (rd 0x3C) 0x3C :=
  ⟨admitted _ _ rfl, admitted _ _ rfl⟩

/-- RegistersReadAsTheRulesSay: a valid table, an invalid one, and an LED count of 32 bits. -/
theorem witness_RegistersReadAsTheRulesSay :
    table80.valid = true ∧ Table.reset.valid = false ∧ (par 0xFFFFFFFF).ne < 2 ^ 32 := by
  decide

/-- RegisterWriteStoresOrIsIgnored: each of the four stores, a read-only register and a reserved slot. -/
theorem witness_RegisterWriteStoresOrIsIgnored :
    Admitted (wr 0x08 1) 0x08 ∧ Admitted (wr 0x0C 1) 0x0C ∧ Admitted (wr 0x14 1) 0x14 ∧ Admitted (wr 0x18 1) 0x18 ∧
    Admitted (wr 0x04 1) 0x04 ∧ Admitted (wr 0x3C 1) 0x3C :=
  ⟨admitted _ _ rfl, admitted _ _ rfl, admitted _ _ rfl, admitted _ _ rfl, admitted _ _ rfl, admitted _ _ rfl⟩

/-- StepRunsTheDecodedCommand: a command and an illegal word. -/
theorem witness_StepRunsTheDecodedCommand :
    Admitted (wr 0x00 8) 0x00 ∧ decodeWord 8 = .cycle ∧ Admitted (wr 0x00 0x11) 0x00 ∧ decodeWord 0x11 = .illegal 0x11 :=
  ⟨admitted _ _ rfl, rfl, admitted _ _ rfl, rfl⟩

/-- HeldHostAndBusyBankWait: a held host; and a host that is not held, with an admitted access to a bank that is busy. -/
theorem witness_HeldHostAndBusyBankWait :
    (let s := txState 0 [.host 0]
     s.nextMove = .host 0 ∧ s.chan? 0 = some (sending 0) ∧ (sending 0).host.held = true) ∧
    (let c := { chan0 (par 1) with busy := true }
     let s := bus (par 1) table80 c (rd 0x04)
     s.nextMove = .host 0 ∧ ∃ c, s.chan? 0 = some c ∧ c.host.held = false ∧ c.busy = true ∧
       c.host.prog = [rd 0x04] ∧ admission s.par 0 (rd 0x04) = .ok 0x04) :=
  ⟨⟨rfl, rfl, rfl⟩, rfl, _, rfl, rfl, rfl, rfl, rfl⟩

/-- ChannelsAreIsolated: two machines whose channels 0 agree and whose channels 1 do not, for a host and a transmitter. -/
theorem witness_ChannelsAreIsolated :
    (let s₁ := bus (par 1) table80 (chan0 (par 1)) (wr 0 6)
     let s₂ := { s₁ with chans := s₁.chans ++ [framed] }
     s₁.nextMove = .host 0 ∧ s₂.nextMove = .host 0 ∧ s₁.par = s₂.par ∧ s₁.tbl = s₂.tbl ∧ s₁.chan? 0 = s₂.chan? 0 ∧
     (∃ t, step s₁ = .next t) ∧ ∃ t, step s₂ = .next t) ∧
    (let s₁ := txState 0 [.tx 0 .cont .ok]
     let s₂ := { s₁ with chans := s₁.chans ++ [framed] }
     s₁.nextMove = .tx 0 .cont .ok ∧ s₂.nextMove = .tx 0 .cont .ok ∧ s₁.chan? 0 = s₂.chan? 0 ∧
     (∃ t, step s₁ = .next t) ∧ ∃ t, step s₂ = .next t) :=
  ⟨⟨rfl, rfl, rfl, rfl, rfl, ⟨_, rfl⟩, _, rfl⟩, rfl, rfl, rfl, ⟨_, rfl⟩, _, rfl⟩

theorem witness_AssembledLinesAreAdmitted :
    { par 1 with k := 64 }.ok = true ∧ (Asm.Line.wr .tblClkHz 63 7).channel < { par 1 with k := 64 }.k := by
  decide

/-- EveryStepKeepsTheStateSound: a sound state and a step from it. -/
theorem witness_EveryStepKeepsTheStateSound :
    let s := txState 0 [.tx 0 .cont .ok]
    s.Sound ∧ ∃ t, step s = .next t :=
  ⟨txState_sound 0 (by decide) _, _, rfl⟩

/-- AdmittedProgramsNeverStop: a machine with an access to issue. -/
theorem witness_AdmittedProgramsNeverStop : (bus (par 1) table80 (chan0 (par 1)) (wr 0x00 8)).ProgramsAdmitted := by
  intro k c hc a ha
  cases k with
  | zero => cases hc; cases ha with
    | head => exact ⟨0, rfl⟩
    | tail _ h => cases h
  | succ k => cases hc

end Sys2Proof.Tests
end

section
/-! SUPPORT. The constraints on the parameters (00_scope.md R8 and R6's range of `TICK_MAX`) and construction. -/
namespace Sys2Proof

@[simp] theorem Params.phaseOk_iff (ns : Nat) : Params.phaseOk ns = true ↔ 1 ≤ ns ∧ ns ≤ 999 := by
  simp [Params.phaseOk]

/-- In the order of R8; `Params.ok` tests `TICK_MAX` in the middle and bounds the frame's length by `Params.frameLen`. -/
theorem Params.ok_iff (p : Params) :
    p.ok = true ↔
      ((1 ≤ p.t0hNs ∧ p.t0hNs ≤ 999) ∧ (1 ≤ p.t0lNs ∧ p.t0lNs ≤ 999) ∧ (1 ≤ p.t1hNs ∧ p.t1hNs ≤ 999) ∧
       (1 ≤ p.t1lNs ∧ p.t1lNs ≤ 999) ∧ (10000 ≤ p.tresetNs ∧ p.tresetNs ≤ 99999) ∧ p.t0hNs < p.t1hNs ∧
       (1 ≤ p.k ∧ p.k ≤ 64) ∧ 48 * p.ne + 1 < 2 ^ 32 ∧ (1 ≤ p.tickMax ∧ p.tickMax < 2 ^ 16)) := by
  simp only [Params.ok, Bool.and_eq_true, decide_eq_true_eq, Params.phaseOk_iff, and_assoc]
  constructor
  · rintro ⟨t0h, t0h', t0l, t0l', t1h, t1h', t1l, t1l', reset, reset', lt, tick, tick', k, k', len⟩
    exact ⟨t0h, t0h', t0l, t0l', t1h, t1h', t1l, t1l', reset, reset', lt, k, k', len, tick, tick'⟩
  · rintro ⟨t0h, t0h', t0l, t0l', t1h, t1h', t1l, t1l', reset, reset', lt, k, k', len, tick, tick'⟩
    exact ⟨t0h, t0h', t0l, t0l', t1h, t1h', t1l, t1l', reset, reset', lt, tick, tick', k, k', len⟩

namespace Machine

@[simp] theorem State.construct_eq_none_iff (p : Params) : State.construct p = none ↔ ¬ p.ok = true := by
  simp [State.construct]

@[simp] theorem State.construct_eq_some_iff (p : Params) (s : State) :
    State.construct p = some s ↔ p.ok = true ∧ State.resetWith p = s := by
  simp [State.construct]

/-- Settles O7: construction tests exactly `Params.ok`, which is R8's constraints with R6's range of `TICK_MAX`. -/
theorem constructionNeedsTheConstraints : Obligations.ConstructionNeedsTheConstraints := by
  intro p
  constructor
  · rw [State.construct_eq_none_iff, Params.ok_iff]
  · intro s hs
    obtain ⟨-, hreset⟩ := (State.construct_eq_some_iff p s).mp hs
    exact hreset.symm

end Machine
end Sys2Proof
end

section
/-! SUPPORT. The timing table: the clock rate and the tick counts of a sound table, and what an access can make of the
table (10_state.md R23, 43_table.md R190, R191). -/
namespace Sys2Proof.Machine

/-! A sound table -/

theorem computeTable_ok {p : Params} {c : Word} {t : Table} (h : computeTable p c = .ok t) :
    t = tableOf p c ∧ ∀ n ∈ tickList p c.toNat, 1 ≤ n ∧ n ≤ p.tickMax := by
  rcases computeTable_cases p c with ⟨-, hc⟩ | ⟨-, -, hc⟩ | ⟨-, hall, hc⟩
  · rw [hc] at h; cases h
  · rw [hc] at h; cases h
  · rw [hc] at h; cases h
    exact ⟨rfl, fun n hn => (tickOk_iff p n).mp (List.all_eq_true.mp hall n hn)⟩

theorem computeTable_valid {p : Params} {c : Word} {t : Table} (h : computeTable p c = .ok t) : t.valid = true := by
  rw [(computeTable_ok h).1]; rfl

/-- A computed table is the one of its own clock rate. -/
theorem Table.sound_of_computeTable {p : Params} {c : Word} {t : Table} (h : computeTable p c = .ok t) :
    t.Sound p := by
  constructor
  · intro hv; rw [computeTable_valid h] at hv; cases hv
  · intro _
    have hclk : t.clk = c := by rw [(computeTable_ok h).1]; rfl
    rw [hclk, h]

theorem Table.sound_reset (p : Params) : Table.reset.Sound p := ⟨fun _ => rfl, nofun⟩

/-- The fields of a computed table hold its tick counts in full: they are at most TICK_MAX, which fits 16 bits. -/
theorem Table.Sound.ticks_inRange {p : Params} {t : Table} (h : t.Sound p) (hp : p.ok = true) (hv : t.valid = true) :
    ∀ f ∈ [t.t0h, t.t0l, t.t1h, t.t1l, t.trst], 1 ≤ f.toNat ∧ f.toNat ≤ p.tickMax := by
  obtain ⟨-, -, -, -, -, -, -, -, -, hmax⟩ := (Params.ok_iff p).mp hp
  obtain ⟨ht, hticks⟩ := computeTable_ok (h.2 hv)
  have field : ∀ n ∈ tickList p t.clk.toNat, 1 ≤ (BitVec.ofNat 16 n).toNat ∧ (BitVec.ofNat 16 n).toNat ≤ p.tickMax := by
    intro n hn
    have hr := hticks n hn
    rwa [BitVec.toNat_ofNat, Nat.mod_eq_of_lt (by omega)]
  intro f hf
  rw [ht] at hf
  obtain ⟨n, hn, rfl⟩ := List.mem_map.mp (show f ∈ (tickList p t.clk.toNat).map (BitVec.ofNat 16) from hf)
  exact field n hn

/-- Every pulse of a frame built from a sound valid table is in range (00_scope.md R12). -/
theorem buildFrame_inRange {p : Params} {t : Table} {en : Bool} {snap : Memory} (h : t.Sound p) (hp : p.ok = true)
    (hv : t.valid = true) : ∀ q ∈ buildFrame p t en snap, q.InRange p := by
  have field := h.ticks_inRange hp hv
  intro q hq
  rcases mem_buildFrame hq with ⟨b, hb⟩ | rfl
  · cases b with
    | false =>
      rcases List.mem_pair.mp hb with rfl | rfl
      · exact field t.t0h (by simp)
      · exact field t.t0l (by simp)
    | true =>
      rcases List.mem_pair.mp hb with rfl | rfl
      · exact field t.t1h (by simp)
      · exact field t.t1l (by simp)
  · exact field t.trst (by simp)

/-! What an access makes of the table -/

/-- The word of TBL_INIT is 1 and no other (30_encoding.md R91). -/
theorem decodeWord_eq_tblInit {w : Word} (h : decodeWord w = .tblInit) : w = 0x00000001 := by
  unfold decodeWord at h
  split at h
  · cases h
  · rename_i hrsv
    split at h
    case h_2 hop =>
      have hr := congrArg BitVec.toNat (not_not.mp hrsv)
      simp only [rsvField, opField, BitVec.extractLsb'_toNat, Nat.shiftRight_eq_div_pow, BitVec.ofNat_eq_ofNat,
        BitVec.toNat_ofNat] at hr hop
      exact BitVec.eq_of_toNat_eq (by simp; omega)
    all_goals cases h

/-- TBL_INIT leaves the table, or finds it invalid and computes it. -/
theorem Effect.initTable_cases (p : Params) (t : Table) (c : Channel) :
    Effect.initTable p t c = t ∨ (t.valid = false ∧ computeTable p c.clkHz = .ok (Effect.initTable p t c)) := by
  unfold Effect.initTable
  cases hv : t.valid
  · cases hc : computeTable p c.clkHz with
    | ok t' => exact .inr ⟨rfl, rfl⟩
    | error e => exact .inl rfl
  · exact .inl rfl

/-- No command but TBL_INIT touches the table. -/
theorem Effect.table_of_ne_tblInit {p : Params} {t : Table} {c : Channel} {i : Instr} (h : i ≠ .tblInit) :
    Effect.table p t c i = t := by
  cases i
  case tblInit => exact absurd rfl h
  all_goals rfl

/-- An access leaves the table, or is the write of TBL_INIT to CMD that finds it invalid and computes it. -/
theorem Effect.accessTable_cases (p : Params) (t : Table) (c : Channel) (r : Reg) (d : Dir) :
    Effect.accessTable p t c r d = t ∨
    (t.valid = false ∧ r = .named .cmd ∧ d = .write 0x00000001 ∧
      computeTable p c.clkHz = .ok (Effect.accessTable p t c r d)) := by
  cases d with
  | read => exact .inl rfl
  | write w =>
    by_cases hr : r = .named .cmd
    · simp only [Effect.accessTable, if_pos hr]
      by_cases hi : decodeWord w = .tblInit
      · rw [hi]
        rcases Effect.initTable_cases p t c with h | ⟨hv, hc⟩
        · exact .inl h
        · exact .inr ⟨hv, hr, by rw [decodeWord_eq_tblInit hi], hc⟩
      · exact .inl (Effect.table_of_ne_tblInit hi)
    · exact .inl (if_neg hr)

/-- Settles O41: of the moves only a host's can touch the table, and its access is then the one TBL_INIT that
computes it. -/
theorem tableIsWrittenOnceUntilReset : Obligations.TableIsWrittenOnceUntilReset := by
  intro s t hstep hne hmove
  rcases step_next hstep with rfl | ⟨k, c, a, rest, off, hm, hc, -, -, hp, ha, rfl⟩ |
    ⟨k, d, r, c, -, -, -, rfl⟩ | ⟨hm, -⟩
  · exact absurd rfl hne
  · rcases Effect.accessTable_cases s.par s.tbl c.issued (Reg.ofOffset off) a.dir with h | ⟨hv, hr, hd, hcomp⟩
    · exact absurd h hne
    · obtain ⟨-, -, -, hbank, hoff⟩ := admission_ok ha
      have hzero : off = 0 := Reg.ofOffset_cmd hr
      exact ⟨hv, computeTable_valid hcomp, k, c, a, rest, hm, hc, hp, hd, by omega, hcomp⟩
  · exact absurd rfl hne
  · exact absurd hm hmove

end Sys2Proof.Machine
end

section
/-! SUPPORT. Soundness of a channel, operation by operation. An operation that leaves the fields a part of
`Channel.Sound` speaks of keeps that part as it stands (`{ h with … }`). -/
namespace Sys2Proof.Machine

variable {p : Params} {t : Table} {c : Channel}

/-! The host's side of a channel, its registers and its flags -/

theorem Channel.Sound.issued (h : c.Sound p t) : c.issued.Sound p t := { h with }

theorem Channel.Sound.answer (v : Word) (h : c.Sound p t) : (c.answer v).Sound p t := { h with }

theorem Channel.Sound.regWrite (v : Word) (r : Reg) (h : c.Sound p t) : (regWrite v c r).Sound p t := by
  rcases r with r | _
  · cases r
    case ctrl => exact { h with }
    case clkHz => exact { h with }
    case pixIdx => exact { h with }
    case pixData => exact { h with }
    all_goals exact h
  · exact h

theorem Channel.Sound.clearStatus (h : c.Sound p t) : c.clearStatus.Sound p t :=
  { h with
    encErrNoFrame := nofun
    dupWarnValid := nofun }

theorem Channel.Sound.illegal (h : c.Sound p t) : c.illegal.Sound p t := { h with }

theorem Channel.Sound.dupInit (h : c.Sound p t) (hv : t.valid = true) : c.dupInit.Sound p t :=
  { h with dupWarnValid := fun _ => hv }

theorem Channel.Sound.initFailed (e : ErrCode) (h : c.Sound p t) : (c.initFailed e).Sound p t := { h with }

theorem Channel.Sound.clearEncErr (h : c.Sound p t) : c.clearEncErr.Sound p t := { h with encErrNoFrame := nofun }

theorem Channel.Sound.clearXmitErr (h : c.Sound p t) : c.clearXmitErr.Sound p t := { h with }

theorem Channel.Sound.noFrameRaised (h : c.Sound p t) : c.noFrame.Sound p t := { h with }

/-! The pixel buffer -/

theorem Channel.Sound.pixWr (h : c.Sound p t) : (c.pixWr p.ne).Sound p t :=
  { h with pixLength := Memory.wf_write _ _ h.pixLength }

theorem Channel.Sound.pixRd (h : c.Sound p t) : (c.pixRd p.ne).Sound p t := { h with }

theorem Channel.Sound.pixFill (h : c.Sound p t) : c.pixFill.Sound p t :=
  { h with pixLength := Memory.wf_fill _ h.pixLength }

theorem Channel.Sound.pixClr (h : c.Sound p t) : c.pixClr.Sound p t :=
  { h with pixLength := Memory.wf_fill _ h.pixLength }

/-! The frame and the transmitter -/

/-- The pulses of a sound channel, held in one of the three places each. -/
theorem Channel.Sound.inRange (h : c.Sound p t) :
    (∀ q ∈ c.frame, q.InRange p) ∧ (∀ q ∈ c.tx.frame, q.InRange p) ∧
      ∀ q ∈ c.stream.map Emission.pulse, q.InRange p := by
  simpa only [List.forall_mem_append, and_assoc] using h.pulsesInRange

theorem Channel.pulsesInRange_of {f x : List Pulse} {l : List Emission} (hf : ∀ q ∈ f, q.InRange p)
    (hx : ∀ q ∈ x, q.InRange p) (hl : ∀ q ∈ l.map Emission.pulse, q.InRange p) :
    ∀ q ∈ f ++ x ++ l.map Emission.pulse, q.InRange p := by
  simpa only [List.forall_mem_append, and_assoc] using ⟨hf, hx, hl⟩

theorem Channel.Sound.encodeFailed (h : c.Sound p t) : c.encodeFailed.Sound p t :=
  { h with
    frameHeld := nofun
    noFrame := fun _ => rfl
    frameLenRange := .inl rfl
    encErrNoFrame := fun _ => ⟨rfl, rfl⟩
    pulsesInRange := Channel.pulsesInRange_of nofun h.inRange.2.1 h.inRange.2.2 }

/-- ENCODE's frame is whole because the buffer has NE entries, and its length fits FRAME_LEN (00_scope.md R8). -/
theorem Channel.Sound.encoded (h : c.Sound p t) (hp : p.ok = true) (ht : t.Sound p) (hv : t.valid = true)
    (he : c.encErr = false) : (c.encoded p t).Sound p t := by
  have hne : c.pix.length = p.ne := (Memory.wf_iff _ _).mp h.pixLength
  have hframe : (buildFrame p t c.attenEn c.pix).length = p.frameLen := by
    rw [length_buildFrame, hne]; rfl
  have hfits : (BitVec.ofNat 32 p.frameLen).toNat = p.frameLen := by
    obtain ⟨-, -, -, -, -, -, -, hlen, -⟩ := (Params.ok_iff p).mp hp
    exact Nat.mod_eq_of_lt hlen
  exact
    { h with
      pixLength := by
        rw [Channel.encoded_pix]
        split
        · exact Memory.wf_attenuate _ h.pixLength
        · exact h.pixLength
      frameHeld := fun _ => ⟨hv, rfl, hframe, hfits⟩
      noFrame := nofun
      frameLenRange := .inr ⟨hv, hfits⟩
      encErrNoFrame := fun he' => absurd he' (Bool.eq_false_iff.mp he)
      pulsesInRange := Channel.pulsesInRange_of (buildFrame_inRange ht hp hv) h.inRange.2.1 h.inRange.2.2 }

theorem Channel.Sound.encode (h : c.Sound p t) (hp : p.ok = true) (ht : t.Sound p) : (c.encode p t).Sound p t := by
  cases hv : t.valid
  · rw [Channel.encode_invalid p c hv]; exact h.clearEncErr.encodeFailed
  · rw [Channel.encode_valid p c hv]; exact h.clearEncErr.encoded hp ht hv rfl

/-- The transmitter takes over the whole held frame from a LOW idle line. -/
theorem Channel.Sound.handOver (h : c.Sound p t) (hf : c.frameValid = true) (hidle : c.tx.active = false) :
    c.handOver.Sound p t := by
  obtain ⟨hv, hclk, hlen, -⟩ := h.frameHeld hf
  exact
    { h with
      busyActive := rfl
      heldActive := rfl
      frameHeld := nofun
      noFrame := fun _ => rfl
      encErrNoFrame := fun he => ⟨rfl, (h.encErrNoFrame he).2⟩
      idleLow := nofun
      txFrame := fun _ => ⟨hv, hclk, hlen⟩
      txPos := Nat.zero_le _
      txSent := fun _ => List.nil_suffix
      txDriven := fun _ => h.idleLow hidle
      pulsesInRange := Channel.pulsesInRange_of nofun h.inRange.1 h.inRange.2.2 }

theorem Channel.Sound.xmit (h : c.Sound p t) (hidle : c.tx.active = false) : c.xmit.Sound p t := by
  cases hf : c.frameValid
  · rw [Channel.xmit_none hf]; exact h.clearXmitErr.noFrameRaised
  · rw [Channel.xmit_frame hf]; exact h.clearXmitErr.handOver hf hidle

theorem Channel.Sound.cycle (h : c.Sound p t) (hp : p.ok = true) (ht : t.Sound p) (hidle : c.tx.active = false) :
    (c.cycle p t).Sound p t := by
  have hc := h.clearEncErr.clearXmitErr.clearEncErr
  cases hv : t.valid
  · rw [Channel.cycle_invalid p c hv]; exact hc.encodeFailed
  · rw [Channel.cycle_valid p c hv]; exact (hc.encoded hp ht hv rfl).clearXmitErr.handOver rfl hidle

/-- What is sent after one more pulse (42_transmit.md R173). -/
theorem Tx.take_succ {x : Tx} {q : Pulse} (hq : x.frame[x.pos]? = some q) :
    x.frame.take (x.pos + 1) = x.frame.take x.pos ++ [q] := by
  rw [List.take_add_one, hq]; rfl

theorem Channel.Sound.emit {q : Pulse} (h : c.Sound p t) (hactive : c.tx.active = true)
    (hq : c.tx.frame[c.tx.pos]? = some q) : (c.emit q).Sound p t := by
  obtain ⟨hframe, htx, hstream⟩ := h.inRange
  exact
    { h with
      idleLow := fun hidle => absurd hactive (Bool.eq_false_iff.mp hidle)
      txPos := (List.getElem?_eq_some_iff.mp hq).1
      txSent := by
        intro _
        obtain ⟨older, holder⟩ := h.txSent hactive
        refine ⟨older, ?_⟩
        simp only [Tx.sent, Channel.emit_tx, Channel.emit_stream, Tx.take_succ hq, List.map_append] at holder ⊢
        rw [← List.append_assoc, holder]
        rfl
      txDriven := by
        intro _
        simp [Tx.driven, Tx.take_succ hq]
      pulsesInRange := by
        refine Channel.pulsesInRange_of hframe htx ?_
        rw [Channel.emit_stream, List.map_append, List.forall_mem_append]
        exact ⟨hstream, by simpa using htx q (List.mem_of_getElem? hq)⟩ }

theorem Channel.Sound.finish (r : TxResult) (h : c.Sound p t) : (c.finish r).Sound p t := by
  rw [Channel.finish_eq]
  exact
    { h with
      busyActive := rfl
      heldActive := rfl
      idleLow := fun _ => rfl
      txFrame := nofun
      txSent := nofun
      txDriven := nofun }

theorem Channel.Sound.txStep (d : Draw) (r : TxResult) (h : c.Sound p t) (hactive : c.tx.active = true) :
    (c.txStep d r).Sound p t := by
  rcases Channel.txStep_cases d r c with ⟨q, -, hq, heq⟩ | ⟨-, heq⟩
  · rw [heq]; exact h.emit hactive hq
  · rw [heq]; exact h.finish _

/-! Block reset and a new table -/

/-- A channel at block reset is sound with any table; of the old channel only the pulses already carried matter. -/
theorem Channel.Sound.blockReset (t' : Table) (h : c.Sound p t) : (c.blockReset p).Sound p t' where
  pixLength := Memory.wf_reset p.ne
  busyActive := rfl
  heldActive := rfl
  frameHeld := nofun
  noFrame := fun _ => rfl
  frameLenRange := .inl rfl
  encErrNoFrame := nofun
  dupWarnValid := nofun
  idleLow := fun _ => rfl
  txFrame := nofun
  txPos := Nat.le_refl 0
  txSent := nofun
  txDriven := nofun
  pulsesInRange := Channel.pulsesInRange_of nofun nofun h.inRange.2.2

/-- A sound channel has nothing of an invalid table in it, so it stays sound when the table is computed. -/
theorem Channel.Sound.newTable (t' : Table) (h : c.Sound p t) (hv : t.valid = false) : c.Sound p t' := by
  have never : ¬ t.valid = true := by simp [hv]
  exact
    { h with
      frameHeld := fun hf => absurd (h.frameHeld hf).1 never
      frameLenRange := .inl (h.frameLenRange.resolve_right fun hl => never hl.1)
      dupWarnValid := fun hd => absurd (h.dupWarnValid hd) never
      txFrame := fun ha => absurd (h.txFrame ha).1 never }

/-! The effect of a command and of an access -/

/-- Every command keeps its channel sound; only the hand-over needs the transmitter idle. -/
theorem Channel.Sound.effect (i : Instr) (h : c.Sound p t) (hp : p.ok = true) (ht : t.Sound p)
    (hidle : c.tx.active = false) : (Effect.chan p t c i).Sound p t := by
  cases i with
  | nop => exact h
  | tblInit =>
    simp only [Effect.chan]
    split
    · exact h.dupInit ‹_›
    · split
      · exact h
      · exact h.initFailed _
  | pixWr => exact h.pixWr
  | pixRd => exact h.pixRd
  | pixFill => exact h.pixFill
  | pixClr => exact h.pixClr
  | encode => exact h.encode hp ht
  | xmit => exact h.xmit hidle
  | cycle => exact h.cycle hp ht hidle
  | clrStat => exact h.clearStatus
  | illegal _ => exact h.illegal

theorem Channel.Sound.access (r : Reg) (d : Dir) (h : c.Sound p t) (hp : p.ok = true) (ht : t.Sound p)
    (hidle : c.tx.active = false) : (Effect.access p t c r d).Sound p t := by
  cases d with
  | read => exact h.answer _
  | write w =>
    simp only [Effect.access]
    split
    · exact h.effect _ hp ht hidle
    · exact h.regWrite w r

end Sys2Proof.Machine
end

section
/-! SUPPORT. Soundness of the machine: one lemma for each kind of step of `step_next`. -/
namespace Sys2Proof.Machine

section
variable {s : State} {k : Nat} {c : Channel}

theorem State.Sound.chan (h : s.Sound) (hc : s.chan? k = some c) : c.Sound s.par s.tbl :=
  h.each c (State.chan?_mem hc)

theorem State.Sound.advance (h : s.Sound) : s.advance.Sound := { h with }

theorem State.Sound.putChan (h : s.Sound) (hc : c.Sound s.par s.tbl) : (s.putChan k c).Sound where
  parOk := h.parOk
  channels := by simpa using h.channels
  table := h.table
  each := by
    intro d hd
    rcases List.mem_or_eq_of_mem_set hd with hd | rfl
    · exact h.each d hd
    · exact hc

/-- A new table, computed where there was none, leaves every channel sound. -/
theorem State.Sound.withTable {t : Table} (h : s.Sound) (ht : t.Sound s.par) (hv : s.tbl.valid = false) :
    { s with tbl := t }.Sound :=
  { h with
    table := ht
    each := fun d hd => (h.each d hd).newTable t hv }

theorem State.Sound.blockReset (h : s.Sound) : s.blockReset.Sound where
  parOk := h.parOk
  channels := by simpa using h.channels
  table := Table.sound_reset s.par
  each := by
    intro d hd
    obtain ⟨c, hc, rfl⟩ := List.mem_map.mp hd
    exact (h.each c hc).blockReset Table.reset

/-- A host that issues is not held, so its transmitter is idle (42_transmit.md R174). -/
theorem State.Sound.afterAccess (r : Reg) (d : Dir) (h : s.Sound) (hc : s.chan? k = some c)
    (hheld : c.host.held = false) : (s.afterAccess k c r d).Sound := by
  have hsound := h.chan hc
  have hidle : c.tx.active = false := hsound.heldActive ▸ hheld
  have hput := h.putChan (k := k) (hsound.issued.access r d h.parOk h.table hidle)
  rcases Effect.accessTable_cases s.par s.tbl c.issued r d with ht | ⟨hv, -, -, hcomp⟩
  · exact { hput with
      table := by rw [State.afterAccess, ht]; exact h.table
      each := by rw [State.afterAccess, ht]; exact hput.each }
  · exact { hput.withTable (Table.sound_of_computeTable hcomp) hv with }

end

/-- Settles O58, by the cases of a step. -/
theorem everyStepKeepsTheStateSound : Obligations.EveryStepKeepsTheStateSound := by
  intro s t hs hstep
  have hadv := hs.advance
  rcases step_next hstep with rfl | ⟨k, c, a, rest, off, -, hc, hheld, -, -, -, rfl⟩ |
    ⟨k, d, r, c, -, hc, hactive, rfl⟩ | ⟨-, rfl⟩
  · exact hadv
  · exact hadv.afterAccess _ _ hc hheld
  · exact hadv.putChan ((hs.chan hc).txStep d r hactive)
  · exact hadv.blockReset

end Sys2Proof.Machine
end

section
/-! SUPPORT. What a read of a register returns, bit by bit and field by field (10_state.md R26, R34). -/
namespace Sys2Proof.Machine

/-- One more flag at the low end of a word whose bits are listed. -/
theorem getLsbD_append_ofBool {n : Nat} {x : BitVec n} {l : List Bool} (a : Bool)
    (h : ∀ b, x.getLsbD b = l[b]?.getD false) (b : Nat) :
    (x ++ BitVec.ofBool a).getLsbD b = (a :: l)[b]?.getD false := by
  rw [BitVec.getLsbD_append]
  cases b with
  | zero => simp
  | succ b => simp [h]

/-- The four bits of a code, 0 above. -/
theorem getLsbD_zero_append_code (e : BitVec 4) (b : Nat) :
    ((0 : BitVec 20) ++ e).getLsbD b =
      ([e.getLsbD 0, e.getLsbD 1, e.getLsbD 2, e.getLsbD 3][b]?.getD false) := by
  rw [BitVec.getLsbD_append]
  by_cases hb : b < 4
  · interval_cases b <;> rfl
  · rw [List.getElem?_eq_none (by simpa using hb)]
    simp [hb]

/-- STATUS, bit by bit: bit 0 first, 0 above bit 11 (10_state.md R26). -/
theorem getLsbD_statusWord (t : Table) (c : Channel) (b : Nat) :
    (statusWord t c).getLsbD b =
      ([t.valid, c.frameValid, c.busy, c.dupWarn, c.initFail, c.encErr, c.xmitErr, c.illCmd,
        c.errCode.code.getLsbD 0, c.errCode.code.getLsbD 1, c.errCode.code.getLsbD 2,
        c.errCode.code.getLsbD 3][b]?.getD false) := by
  unfold statusWord
  iterate 8 refine getLsbD_append_ofBool _ (fun b => ?_) b
  exact getLsbD_zero_append_code _ b

theorem ctrlWord_eq (c : Channel) : ctrlWord c = if c.attenEn then 1 else 0 := by
  cases h : c.attenEn <;> simp [ctrlWord, h]

theorem Table.view_valid {t : Table} (h : t.valid = true) (v : Word) : t.view v = v := if_pos h

theorem Table.view_invalid {t : Table} (h : t.valid = false) (v : Word) : t.view v = 0 := by
  simp [Table.view, h]

/-- What the four table views of a valid table read as (10_state.md R34). -/
theorem regRead_views_of_valid (p : Params) {t : Table} (c : Channel) (h : t.valid = true) :
    regRead p t c (.named .t0Ticks) = t.t0l ++ t.t0h ∧ regRead p t c (.named .t1Ticks) = t.t1l ++ t.t1h ∧
    regRead p t c (.named .trstTicks) = t.trst.setWidth 32 ∧ regRead p t c (.named .tblClkHz) = t.clk :=
  ⟨Table.view_valid h _, Table.view_valid h _, Table.view_valid h _, Table.view_valid h _⟩

/-- The four table views of an invalid table read 0 (10_state.md R34). -/
theorem regRead_views_of_invalid (p : Params) {t : Table} (c : Channel) (h : t.valid = false) :
    regRead p t c (.named .t0Ticks) = 0 ∧ regRead p t c (.named .t1Ticks) = 0 ∧
    regRead p t c (.named .trstTicks) = 0 ∧ regRead p t c (.named .tblClkHz) = 0 :=
  ⟨Table.view_invalid h _, Table.view_invalid h _, Table.view_invalid h _, Table.view_invalid h _⟩

/-- Settles O51: the constants and the stored registers hold by definition, the rest by the lemma of its register. -/
theorem registersReadAsTheRulesSay : Obligations.RegistersReadAsTheRulesSay := by
  refine ⟨⟨rfl, rfl, rfl, rfl, rfl, rfl, rfl⟩, fun p t c => ?_⟩
  have hled (hne : p.ne < 2 ^ 32) : (BitVec.ofNat 32 p.ne).toNat = p.ne := Nat.mod_eq_of_lt hne
  have hpix : (c.pixData.setWidth 32).toNat = c.pixData.toNat := BitVec.toNat_setWidth_of_le (by decide)
  refine ⟨rfl, getLsbD_statusWord t c, ctrlWord_eq c, rfl, hled, rfl, hpix, rfl, fun hv => ?_,
    regRead_views_of_invalid p c, rfl, rfl, rfl, rfl⟩
  obtain ⟨h0, h1, hrst, hclk⟩ := regRead_views_of_valid p c hv
  simp only [Reg.ofOffset, h0, h1, hrst, hclk, and_true]
  exact ⟨BitVec.extractLsb'_append_eq_right, BitVec.extractLsb'_append_eq_left, BitVec.extractLsb'_append_eq_right,
    BitVec.extractLsb'_append_eq_left, BitVec.toNat_setWidth_of_le (by decide)⟩

end Sys2Proof.Machine
end

section
/-! SUPPORT. The bus (20_memory.md): the byte lanes of a word, which accesses are admitted, and what the admitted read,
register write and command write of a host that is free to move do in one step. -/
namespace Sys2Proof

/-! Byte lanes -/

theorem getLsbD_byteLane (v : Word) (j : Nat) {b : Nat} (hb : b < 8) :
    (byteLane v j).getLsbD b = v.getLsbD (8 * j + b) := by
  simp [byteLane, hb]

/-- Each lane continues the lanes below it without a gap, so together they are bits 31:0. -/
theorem wordOfBytes_byteLanes (v : Word) :
    wordOfBytes (byteLane v 0) (byteLane v 1) (byteLane v 2) (byteLane v 3) = v := by
  have upper : byteLane v 3 ++ byteLane v 2 = v.extractLsb' 16 16 :=
    BitVec.extractLsb'_append_extractLsb'_eq_extractLsb' rfl
  have upperThree : v.extractLsb' 16 16 ++ byteLane v 1 = v.extractLsb' 8 24 :=
    BitVec.extractLsb'_append_extractLsb'_eq_extractLsb' rfl
  have all : v.extractLsb' 8 24 ++ byteLane v 0 = v.extractLsb' 0 32 :=
    BitVec.extractLsb'_append_extractLsb'_eq_extractLsb' rfl
  rw [wordOfBytes, upper, upperThree, all, BitVec.extractLsb'_eq_self]

/-- Settles O5: the lanes bit by bit, and joined again. -/
theorem byteLanesAreLittleEndian : Obligations.ByteLanesAreLittleEndian :=
  fun v => ⟨fun j _ _ hb => getLsbD_byteLane v j hb, rfl, wordOfBytes_byteLanes v⟩

namespace Machine

/-! Admission -/

/-- The converse of `admission_ok`: an access that passes the four tests is admitted. -/
theorem admission_eq_ok {p : Params} {a : Access} (hwidth : a.width = .w32) (halign : a.addr.toNat % 4 = 0)
    (hmapped : a.addr.toNat < p.k * 0x40) :
    admission p (a.addr.toNat / 0x40) a = .ok (a.addr.toNat % 0x40) := by
  simp [admission, hwidth, halign, Nat.not_le.mpr hmapped]

/-- Settles O48: the four tests of admission are necessary and together sufficient. -/
theorem admittedAccesses : Obligations.AdmittedAccesses := by
  intro p j off a
  constructor
  · exact admission_ok
  · rintro ⟨hwidth, halign, hmapped, rfl, rfl⟩
    exact admission_eq_ok hwidth halign hmapped

/-- An access admitted at offset 0 is at the base of the host's own bank (10_state.md R25). -/
theorem admission_addr_of_cmd {p : Params} {j : Nat} {a : Access} (h : admission p j a = .ok 0) :
    a.addr.toNat = j * 0x40 := by
  obtain ⟨-, -, -, hbank, hoff⟩ := admission_ok h
  omega

/-! The access leaves the host's program -/

section
variable {k : Nat} {c : Channel} {a : Access} {rest : List Access}

/-- What the statements of a host's step write out for the channel once its next access is issued. -/
theorem Channel.issued_of_prog (hp : c.host.prog = a :: rest) :
    c.issued = { c with host := { held := c.host.held, prog := rest, inbox := c.host.inbox } } := by
  simp [Channel.issued, HostAgent.issued, hp]

theorem State.issue_of_prog (s : State) (k : Nat) (hp : c.host.prog = a :: rest) :
    s.issue k c = { s with
      cur := k
      chans := s.chans.set k { c with host := { held := c.host.held, prog := rest, inbox := c.host.inbox } } } := by
  rw [State.issue, Channel.issued_of_prog hp]

end

/-! Reads and writes of registers -/

/-- No register shows the host's own data. -/
@[simp] theorem regRead_issued (p : Params) (t : Table) (c : Channel) (r : Reg) :
    regRead p t c.issued r = regRead p t c r := by
  rcases r with r | _
  · cases r <;> rfl
  · rfl

/-- The stored registers by their offsets (20_memory.md R67); the slot of CMD is among those that store nothing. -/
theorem regWrite_ofOffset (v : Word) (c : Channel) (off : Nat) :
    regWrite v c (Reg.ofOffset off) =
      if off = 0x08 then { c with attenEn := v.getLsbD 0 }
      else if off = 0x0C then { c with clkHz := v }
      else if off = 0x14 then { c with pixIdx := v }
      else if off = 0x18 then { c with pixData := v.extractLsb' 0 24 }
      else c := by
  unfold Reg.ofOffset
  split
  case h_13 => simp_all [regWrite]
  all_goals rfl

/-- Settles O50: the read answers the issued channel, whose registers read as before. -/
theorem readReturnsTheRegisterOnly : Obligations.ReadReturnsTheRegisterOnly := by
  intro s k off c a rest hmove hc hheld hbusy hp ha hread
  rw [step_host_access hmove hc hheld hbusy hp ha, hread]
  simp only [State.afterAccess, Effect.access, Effect.accessTable, regRead_issued]
  simp only [Channel.answer, Channel.issued_of_prog hp]
  rfl

/-- Settles O52: off the slot of CMD the access is `regWrite`, and the table is not touched. -/
theorem registerWriteStoresOrIsIgnored : Obligations.RegisterWriteStoresOrIsIgnored := by
  intro s k off c a rest v hmove hc hheld hbusy hp ha hwrite hoff
  have hcmd : Reg.ofOffset off ≠ .named .cmd := fun h => hoff (Reg.ofOffset_cmd h)
  rw [step_host_access hmove hc hheld hbusy hp ha, hwrite]
  simp only [State.afterAccess, Effect.access, Effect.accessTable, if_neg hcmd, regWrite_ofOffset,
    Channel.issued_of_prog hp]
  rfl

/-- Settles O53: with the bank idle and the access admitted, the bus hands the word's command to `exec`. -/
theorem stepRunsTheDecodedCommand : Obligations.StepRunsTheDecodedCommand := by
  intro s k c a rest i w hmove hc hheld hbusy hp ha hwrite hdecode
  have hissue : step s = exec (decodeWord w) (s.advance.issue k c) := by
    rw [step_host hmove hc hheld hp, ha]
    simp only [hbusy, hwrite]
    rfl
  rw [hissue, hdecode, State.issue_of_prog _ k hp]
  rfl

end Machine
end Sys2Proof
end

section
/-! SUPPORT. Where the machine stops: only a host's move can, and only at the bus's admission (20_memory.md R61, R62, R77;
log 4). -/
namespace Sys2Proof.Machine

/-- An issued access has its channel, so it is never a fault. -/
theorem hostMove_fault {k : Nat} {s : State} {f : Fault} (h : hostMove k s = .fault f) :
    ∃ c a rest, s.chan? k = some c ∧ c.host.held = false ∧ c.host.prog = a :: rest ∧
      admission s.par k a = .error f := by
  unfold hostMove at h
  split at h
  · cases h
  · rename_i c hc
    split at h
    · cases h
    · rename_i hheld
      split at h
      · cases h
      · rename_i a rest hp
        split at h
        · rename_i f' ha
          cases h
          exact ⟨c, a, rest, hc, by simpa using hheld, hp, ha⟩
        · split at h
          · cases h
          · rw [access_issue _ _ hc] at h
            cases h

theorem txMove_ne_fault (k : Nat) (d : Draw) (r : TxResult) (s : State) (f : Fault) : txMove k d r s ≠ .fault f := by
  unfold txMove
  split
  · split <;> exact nofun
  · exact nofun

/-- The inversion of `step` at a fault, beside `step_next`. -/
theorem step_fault {s : State} {f : Fault} (h : step s = .fault f) :
    ∃ k c a rest, s.nextMove = .host k ∧ s.chan? k = some c ∧ c.host.held = false ∧ c.host.prog = a :: rest ∧
      admission s.par k a = .error f := by
  unfold step runMove at h
  split at h
  · rename_i k hmove
    obtain ⟨c, a, rest, hc, hheld, hp, ha⟩ := hostMove_fault h
    exact ⟨k, c, a, rest, hmove, hc, hheld, hp, ha⟩
  · exact absurd h (txMove_ne_fault _ _ _ _ f)
  · cases h

/-- Settles O49, by the inversion of a step that stops and, back, by the step of a free host. -/
theorem stepStopsOnlyOnAnUnadmittedAccess : Obligations.StepStopsOnlyOnAnUnadmittedAccess := by
  intro s f
  constructor
  · exact step_fault
  · rintro ⟨k, c, a, rest, hmove, hc, hheld, hp, ha⟩
    rw [step_host hmove hc hheld hp, ha]

end Sys2Proof.Machine
end

section
/-! SUPPORT. What can change a held frame (20_memory.md R76): of the accesses only the commands ENCODE, XMIT and CYCLE, and
of the other moves only block reset. -/
namespace Sys2Proof.Machine

@[simp] theorem regWrite_frame (v : Word) (c : Channel) (r : Reg) : (regWrite v c r).frame = c.frame := by
  rcases r with r | _
  · cases r <;> rfl
  · rfl

/-- The transmitter sends from TX_FRAME, a copy of its own (42_transmit.md R172). -/
@[simp] theorem Channel.txStep_frame (d : Draw) (r : TxResult) (c : Channel) : (c.txStep d r).frame = c.frame := by
  rcases Channel.txStep_cases d r c with ⟨q, -, -, heq⟩ | ⟨-, heq⟩
  · rw [heq, Channel.emit_frame]
  · rw [heq, Channel.finish_eq]

/-- The three commands that build, discard or hand over a frame (41_encode.md R144, 42_transmit.md R170, R178). -/
theorem Effect.chan_frame {p : Params} {t : Table} {c : Channel} {i : Instr} (h : (Effect.chan p t c i).frame ≠ c.frame) :
    i = .encode ∨ i = .xmit ∨ i = .cycle := by
  cases i with
  | encode => exact .inl rfl
  | xmit => exact .inr (.inl rfl)
  | cycle => exact .inr (.inr rfl)
  | tblInit =>
    refine absurd ?_ h
    simp only [Effect.chan]
    split
    · rfl
    · split <;> rfl
  | nop | pixWr | pixRd | pixFill | pixClr | clrStat | illegal => exact absurd rfl h

theorem Effect.access_frame {p : Params} {t : Table} {c : Channel} {r : Reg} {d : Dir}
    (h : (Effect.access p t c r d).frame ≠ c.frame) :
    r = .named .cmd ∧ ∃ w, d = .write w ∧ (decodeWord w = .encode ∨ decodeWord w = .xmit ∨ decodeWord w = .cycle) := by
  cases d with
  | read => exact absurd rfl h
  | write w =>
    by_cases hr : r = .named .cmd
    · rw [Effect.access, if_pos hr] at h
      exact ⟨hr, w, rfl, Effect.chan_frame h⟩
    · rw [Effect.access, if_neg hr] at h
      exact absurd (regWrite_frame w c r) h

/-- Settles O38, by the cases of a step: a transmitter keeps every frame, a host those of the other channels, and its own
but for the three commands. -/
theorem frameIsASnapshot : Obligations.FrameIsASnapshot := by
  intro s t k c d hstep hc hd hne
  rcases step_next hstep with rfl | ⟨j, c', a, rest, off, hmove, hc', -, -, hp, ha, rfl⟩ |
    ⟨j, draw, r, c', -, hc', -, rfl⟩ | ⟨hmove, -⟩
  · rw [State.chan?_advance, hc] at hd
    cases hd
    exact absurd rfl hne
  · rw [State.chan?_afterAccess (s := s.advance) k _ _ hc', State.chan?_advance] at hd
    by_cases hkj : k = j
    · subst hkj
      obtain rfl := Option.some.inj (hc.symm.trans hc')
      rw [if_pos rfl] at hd
      cases hd
      obtain ⟨hr, w, hw, hi⟩ := Effect.access_frame hne
      obtain rfl := Reg.ofOffset_cmd hr
      exact .inr ⟨hmove, a, w, rest, hp, hw, admission_addr_of_cmd ha, hi⟩
    · rw [if_neg hkj, hc] at hd
      cases hd
      exact absurd rfl hne
  · refine absurd ?_ hne
    by_cases hkj : k = j
    · subst hkj
      obtain rfl := Option.some.inj (hc.symm.trans hc')
      rw [State.chan?_putChan_self (s := s.advance) _ hc] at hd
      cases hd
      exact Channel.txStep_frame _ _ _
    · rw [State.chan?_putChan_other _ _ hkj, State.chan?_advance, hc] at hd
      cases hd
      rfl
  · exact .inl hmove

end Sys2Proof.Machine
end

section
/-! SUPPORT. The decoder and the encoder (30_encoding.md R91 to R95): a word is illegal exactly from 0xA on, and the ten
words below it are finite facts. -/
namespace Sys2Proof

/-- R95's two conditions on the fields say that the word as a number is at least 0xA. -/
theorem isReservedWord_iff (w : Word) : isReservedWord w = true ↔ 0xA ≤ w.toNat := by
  have hrsv : w.extractLsb' 4 28 = 0 ↔ w.toNat / 16 = 0 := by
    simp only [← BitVec.toNat_inj, BitVec.extractLsb'_toNat, Nat.shiftRight_eq_div_pow, BitVec.ofNat_eq_ofNat,
      BitVec.toNat_ofNat]
    omega
  have hop : (w.extractLsb' 0 4).toNat = w.toNat % 16 := by simp
  simp only [isReservedWord, Bool.or_eq_true, bne_iff_ne, decide_eq_true_eq, ne_eq, hrsv, hop]
  omega

theorem decodeWord_of_reserved {w : Word} (h : isReservedWord w = true) : decodeWord w = .illegal w := by
  unfold decodeWord
  split
  · rfl
  · rename_i hrsv
    have hfields : isReservedWord w = (rsvField w != 0 || decide (0xA ≤ (opField w).toNat)) := rfl
    have hop : 0xA ≤ (opField w).toNat := by
      simpa [hfields, not_not.mp hrsv] using h
    split
    case h_11 => rfl
    all_goals omega

/-- A word that is not reserved is one of ten, so that a fact about it is closed by evaluation. -/
theorem exists_fin_of_not_reserved {w : Word} (h : isReservedWord w = false) : ∃ n : Fin 10, w = BitVec.ofNat 32 n := by
  have hlt : w.toNat < 0xA := not_le.mp (mt (isReservedWord_iff w).mpr (Bool.eq_false_iff.mp h))
  exact ⟨⟨w.toNat, hlt⟩, by simp⟩

/-- The ten commands in the order of R91, at the place the word's `op` names. -/
theorem getElem?_op_of_not_reserved {w : Word} (h : isReservedWord w = false) :
    [Instr.nop, .tblInit, .pixWr, .pixRd, .pixFill, .pixClr, .encode, .xmit, .cycle, .clrStat][(opField w).toNat]?
      = some (decodeWord w) := by
  obtain ⟨n, rfl⟩ := exists_fin_of_not_reserved h
  decide +revert

theorem encode_decodeWord (w : Word) : encode (decodeWord w) = w := by
  cases h : isReservedWord w with
  | true => rw [decodeWord_of_reserved h, encode]
  | false =>
    obtain ⟨n, rfl⟩ := exists_fin_of_not_reserved h
    decide +revert

theorem wf_decodeWord (w : Word) : (decodeWord w).wf = true := by
  cases h : isReservedWord w with
  | true => rw [decodeWord_of_reserved h, Instr.wf, h]
  | false =>
    obtain ⟨n, rfl⟩ := exists_fin_of_not_reserved h
    decide +revert

theorem decodeWord_encode {i : Instr} (h : i.wf = true) : decodeWord (encode i) = i := by
  cases i with
  | illegal w => exact decodeWord_of_reserved h
  | _ => decide

/-- The bytes the encoder writes are read back as its word, and as one word only (R94). -/
theorem decodeBytes_encodeBytes_append (i : Instr) (rest : List Byte) :
    decodeBytes (encodeBytes i ++ rest) = .ok (decodeWord (encode i), rest) := by
  change Except.ok (decodeWord (wordOfBytes _ _ _ _), rest) = _
  rw [wordOfBytes_byteLanes]

/-- Settles O1, from the word and from its bytes. -/
theorem decodeOfEncodeIsTheCommand : Obligations.DecodeOfEncodeIsTheCommand := by
  intro i rest h
  rw [decodeBytes_encodeBytes_append, decodeWord_encode h]
  exact ⟨rfl, rfl⟩

/-- Settles O2: the statement's two conditions on the fields are those of `isReservedWord`. -/
theorem everyWordIsOneCommandOrIllegal : Obligations.EveryWordIsOneCommandOrIllegal := by
  intro w op bad
  have hbad : isReservedWord w = true ↔ bad := by simp [isReservedWord, bad, op]
  refine ⟨fun hb => decodeWord_of_reserved (hbad.mpr hb), fun hn => ?_, encode_decodeWord w, wf_decodeWord w⟩
  exact getElem?_op_of_not_reserved (Bool.eq_false_iff.mpr (mt hbad.mp hn))

/-! The opcode table (spec/opcode_table.json) -/

/-- A row that names a command is of one word, and that word is not reserved. -/
theorem opcodeTable_command_row : ∀ r ∈ opcodeTable, r.command.isSome = true →
    r.mask = BitVec.allOnes 32 ∧ isReservedWord r.pattern = false := by
  decide

/-- The last row takes every word (log 14). -/
theorem tableRow_isSome (w : Word) : (tableRow w).isSome = true := by
  refine List.find?_isSome.mpr ⟨⟨"ILLEGAL", 0, 0, none⟩, by decide, by simp⟩

/-- A reserved word is of no row that names a command. -/
theorem tableRow_command_of_reserved {w : Word} {r : OpcodeRow} (h : isReservedWord w = true) (hr : tableRow w = some r) :
    r.command = none := by
  have hmatch : w &&& r.mask = r.pattern := by simpa using List.find?_some hr
  by_contra hc
  obtain ⟨hmask, hpattern⟩ :=
    opcodeTable_command_row r (List.mem_of_find?_eq_some hr) (Option.isSome_iff_ne_none.mpr hc)
  rw [hmask, BitVec.and_allOnes] at hmatch
  rw [← hmatch, h] at hpattern
  cases hpattern

theorem decode_tableRow_of_not_reserved {w : Word} (h : isReservedWord w = false) :
    (tableRow w).map (fun r => r.decode w) = some (decodeWord w) := by
  obtain ⟨n, rfl⟩ := exists_fin_of_not_reserved h
  decide +revert

/-- Settles O3: the row of a reserved word names no command, and the rows of the ten other words are evaluated. -/
theorem decoderReadsTheOpcodeTable : Obligations.DecoderReadsTheOpcodeTable := by
  intro w
  cases h : isReservedWord w with
  | true =>
    obtain ⟨r, hr⟩ := Option.isSome_iff_exists.mp (tableRow_isSome w)
    refine ⟨r, hr, ?_⟩
    rw [decodeWord_of_reserved h, OpcodeRow.decode, tableRow_command_of_reserved h hr, Option.getD_none]
  | false =>
    obtain ⟨r, hr, hdecode⟩ := Option.map_eq_some_iff.mp (decode_tableRow_of_not_reserved h)
    exact ⟨r, hr, hdecode.symm⟩

/-- Settles O4, by evaluation. -/
theorem writtenWordsDecode : Obligations.WrittenWordsDecode := by
  unfold Obligations.WrittenWordsDecode
  decide

end Sys2Proof
end

section
/-! SUPPORT. The position formula of a frame (30_encoding.md R98, R99): the laws of `pulseAt`, one for each of its branches. -/
namespace Sys2Proof.Machine

theorem pulseAt_reset (p : Params) (t : Table) (en : Bool) (snap : Memory) :
    pulseAt p t en snap (48 * snap.length) = some (rst t) := if_pos rfl

theorem buildFrame_reset (p : Params) (t : Table) (en : Bool) (snap : Memory) :
    (buildFrame p t en snap)[48 * snap.length]? = some (rst t) := by
  have hlen : ((frameBits p en snap).flatMap (sym t)).length = 48 * snap.length := by
    simp [List.length_flatMap, length_sym, length_frameBits]; omega
  rw [buildFrame, ← hlen, List.getElem?_concat_length]

/-- A position before the reset pulse is in the symbol of a bit of an LED's slot. -/
theorem pulseAt_of_lt (p : Params) (t : Table) (en : Bool) {snap : Memory} {q : Nat} {c : Color} (hq : q < 48 * snap.length)
    (hc : snap[q / 48]? = some c) :
    pulseAt p t en snap q
      = (sym t (wireBit p (sentColor p en c) (q % 48 / 16) (7 - q % 48 % 16 / 2)))[q % 48 % 2]? := by
  simp [pulseAt, hq.ne, hc]

/-- Slot, bit and phase of R99's formula lead back to the position. -/
theorem buildFrame_eq_pulseAt_of_lt (p : Params) (t : Table) (en : Bool) {snap : Memory} {q : Nat}
    (hq : q < 48 * snap.length) : (buildFrame p t en snap)[q]? = pulseAt p t en snap q := by
  have hc : snap[q / 48]? = some snap[q / 48] := List.getElem?_eq_getElem (by omega)
  have hpos : 48 * (q / 48) + 16 * (q % 48 / 16) + 2 * (7 - (7 - q % 48 % 16 / 2)) + q % 48 % 2 = q := by omega
  rw [pulseAt_of_lt p t en hq hc, ← getElem?_buildFrame p t en snap _ _ _ _ _ hc (by omega) (by omega) (by omega), hpos]

/-- Settles O31: the reset pulse at the end, and the formula before it. -/
theorem pulseIsWhereItsPositionSays : Obligations.PulseIsWhereItsPositionSays := by
  intro p t en snap
  refine ⟨length_buildFrame p t en snap, fun q hq => ?_⟩
  have heq : (buildFrame p t en snap)[q]? = pulseAt p t en snap q := by
    rcases hq.lt_or_eq with hlt | rfl
    · exact buildFrame_eq_pulseAt_of_lt p t en hlt
    · rw [pulseAt_reset, buildFrame_reset]
  refine ⟨heq, ?_⟩
  rw [← heq, List.getElem?_eq_getElem (by rw [length_buildFrame]; omega)]
  rfl

end Sys2Proof.Machine
end

section
/-! SUPPORT. The address of an assembled line (30_encoding.md R102) and its admission (20_memory.md R61 to R63). -/
namespace Sys2Proof.Machine

theorem Reg.ofOffset_offset (r : RegName) : Reg.ofOffset r.offset = .named r := by
  cases r <;> rfl

theorem RegName.offset_lt (r : RegName) : r.offset < 0x40 := by
  cases r <;> decide

theorem RegName.offset_aligned (r : RegName) : r.offset % 4 = 0 := by
  cases r <;> rfl

/-- Below `2^26` banks the address does not wrap (log 21). -/
theorem Asm.toNat_regAddr (r : RegName) {k : Nat} (hk : k < 2 ^ 26) : (Asm.regAddr r k).toNat = k * 0x40 + r.offset := by
  have hoff := r.offset_lt
  rw [Asm.regAddr, bankBase, BitVec.toNat_ofNat]
  exact Nat.mod_eq_of_lt (by omega)

/-- A 32-bit access of host `H_k` to a register of its own bank. -/
theorem admission_regAddr {p : Params} {k : Nat} (r : RegName) (d : Dir) (hp : p.ok = true) (hk : k < p.k) :
    admission p k ⟨Asm.regAddr r k, .w32, d⟩ = .ok r.offset := by
  have hoff := r.offset_lt
  have halign := r.offset_aligned
  obtain ⟨-, -, -, -, -, -, ⟨-, hbanks⟩, -⟩ := p.ok_iff.mp hp
  have haddr : (Asm.regAddr r k).toNat = k * 0x40 + r.offset := Asm.toNat_regAddr r (by omega)
  refine (admittedAccesses p k r.offset _).mpr ⟨rfl, ?_, ?_, ?_, ?_⟩
  all_goals
    simp only [haddr]
    omega

/-- Settles O56: each of the three lines is an access to a register of the host's own bank, and the examples are read. -/
theorem assembledLinesAreAdmitted : Obligations.AssembledLinesAreAdmitted := by
  refine ⟨Reg.ofOffset_offset, fun p l hp hk => ?_, by decide, by decide⟩
  cases l with
  | wr r k v => exact admission_regAddr r _ hp hk
  | rd r k => exact admission_regAddr r _ hp hk
  | cmd i k => exact admission_regAddr .cmd _ hp hk

end Sys2Proof.Machine
end

section
/-! SUPPORT. The pixel commands (40_pixel.md): reading and writing a pixel on either side of NE, and what the four
commands can make of their channel. -/
namespace Sys2Proof.Machine

/-! The pixel buffer on either side of NE -/

theorem Memory.read_of_lt {ne i : Nat} (m : Memory) (h : i < ne) : Memory.read ne m i = m[i]? := if_pos h

theorem Memory.read_of_le {ne i : Nat} (m : Memory) (h : ne ≤ i) : Memory.read ne m i = none := if_neg h.not_gt

theorem Memory.write_of_lt {ne i : Nat} (m : Memory) (c : Color) (h : i < ne) : Memory.write ne m i c = m.set i c :=
  if_pos h

theorem Memory.write_of_le {ne i : Nat} (m : Memory) (c : Color) (h : ne ≤ i) : Memory.write ne m i c = m :=
  if_neg h.not_gt

/-- Unlike `Memory.read_write`, for a buffer of any length. -/
theorem Memory.read_write_other (ne : Nat) (m : Memory) {i j : Nat} (c : Color) (h : j ≠ i) :
    Memory.read ne (Memory.write ne m i c) j = Memory.read ne m j := by
  rcases Nat.lt_or_ge i ne with hi | hi
  · rw [Memory.write_of_lt m c hi, Memory.read, List.getElem?_set_ne h.symm, Memory.read]
  · rw [Memory.write_of_le m c hi]

theorem Memory.fill_zero_eq_reset (m : Memory) : Memory.fill m 0 = Memory.reset m.length :=
  Memory.fill_eq_replicate m 0

theorem Memory.getElem?_reset {ne i : Nat} (h : i < ne) : (Memory.reset ne)[i]? = some 0 :=
  List.getElem?_replicate_of_lt h

/-! The commands -/

/-- A command other than TBL_INIT changes only its channel. -/
theorem exec_of_ne_tblInit {i : Instr} {s : State} {c : Channel} (hi : i ≠ .tblInit) (hc : s.chan? s.cur = some c) :
    exec i s = .next (s.putChan s.cur (Effect.chan s.par s.tbl c i)) := by
  rw [exec_some i hc, Effect.table_of_ne_tblInit hi]
  rfl

/-- A pixel command writes the buffer and PIX_DATA at most: PIX_RD not the buffer, the others not PIX_DATA, and PIX_WR
no pixel but the one at PIX_IDX. -/
theorem Effect.chan_of_pixel (p : Params) (t : Table) (c : Channel) {i : Instr}
    (hi : i = .pixWr ∨ i = .pixRd ∨ i = .pixFill ∨ i = .pixClr) :
    ∃ (m : Memory) (d : Color), Effect.chan p t c i = { c with pix := m, pixData := d } ∧
      (i ≠ .pixRd → d = c.pixData) ∧ (i = .pixRd → m = c.pix) ∧
      (i = .pixWr → ∀ a, a ≠ c.pixIdx.toNat → Memory.read p.ne m a = Memory.read p.ne c.pix a) := by
  rcases hi with rfl | rfl | rfl | rfl
  · exact ⟨_, _, rfl, fun _ => rfl, nofun, fun _ a ha => Memory.read_write_other p.ne c.pix c.pixData ha⟩
  · exact ⟨_, _, rfl, fun h => absurd rfl h, fun _ => rfl, nofun⟩
  · exact ⟨_, _, rfl, fun _ => rfl, nofun, nofun⟩
  · exact ⟨_, _, rfl, fun _ => rfl, nofun, nofun⟩

/-- Settles O12, by a read after a write in range, and by a write that does nothing out of range. -/
theorem pixWrWritesOnePixel : Obligations.PixWrWritesOnePixel := by
  refine ⟨decodeWord_encode (i := .pixWr) rfl, fun s c hc hlen => ?_⟩
  refine ⟨c.pix.write s.par.ne c.pixIdx.toNat c.pixData, exec_of_ne_tblInit nofun hc, ?_, fun i hi => ?_, fun hout => ?_⟩
  · rw [Memory.length_write, hlen]
  · have hwf : Memory.wf s.par.ne c.pix = true := (Memory.wf_iff _ _).mpr hlen
    rw [← Memory.read_of_lt _ hi, Memory.read_write _ i _ hwf hi, Memory.read_of_lt _ hi]
  · exact Memory.write_of_le _ _ hout

/-- Settles O13: the read finds a pixel exactly below NE. -/
theorem pixRdReadsOnePixel : Obligations.PixRdReadsOnePixel := by
  refine ⟨decodeWord_encode (i := .pixRd) rfl, fun s c hc hlen => ?_⟩
  refine ⟨(c.pix.read s.par.ne c.pixIdx.toNat).getD c.pixData, exec_of_ne_tblInit nofun hc, fun hin => ?_, fun hout => ?_⟩
  · have hpixel : c.pix[c.pixIdx.toNat]? = some c.pix[c.pixIdx.toNat] := List.getElem?_eq_getElem (hlen ▸ hin)
    rw [Memory.read_of_lt _ hin, hpixel, Option.getD_some]
  · rw [Memory.read_of_le _ hout, Option.getD_none]

/-- Settles O25: the channel is the old one but for its buffer and PIX_DATA. -/
theorem pixelCommandsFrame : Obligations.PixelCommandsFrame := by
  intro i s t c hc hexec hi
  have hne : i ≠ .tblInit := by rintro rfl; simp at hi
  obtain ⟨m, d, hchan, hdata, hrd, hwr⟩ := Effect.chan_of_pixel s.par s.tbl c hi
  rw [exec_of_ne_tblInit hne hc, hchan] at hexec
  cases hexec
  exact ⟨rfl, _, State.chan?_putChan_self _ hc, rfl, rfl, rfl, rfl, hdata, rfl, rfl, rfl, rfl, rfl, rfl, hrd, hwr⟩

/-- Settles O14: a filled buffer is its length in copies of the color. -/
theorem pixFillSetsEveryPixel : Obligations.PixFillSetsEveryPixel := by
  refine ⟨decodeWord_encode (i := .pixFill) rfl, fun s c hc hlen => ?_⟩
  rw [← hlen, ← Memory.fill_eq_replicate]
  exact exec_of_ne_tblInit nofun hc

/-- Settles O15: filling with black gives the reset buffer. -/
theorem pixClrRestoresTheBlackBuffer : Obligations.PixClrRestoresTheBlackBuffer := by
  refine ⟨decodeWord_encode (i := .pixClr) rfl, fun s c hc hlen => ⟨?_, fun i => Memory.getElem?_reset⟩⟩
  rw [← hlen, ← Memory.fill_zero_eq_reset]
  exact exec_of_ne_tblInit nofun hc

end Sys2Proof.Machine
end

section
/-! SUPPORT. Attenuation (41_encode.md R141, R148): `half` as one formula for both roundings, and the bytes of an attenuated
color. -/
namespace Sys2Proof.Machine

/-! half -/

/-- The formulas of R141 in one: HALF_UP adds 1 before it halves, and neither wraps. -/
theorem toNat_half (r : AttenRounding) (v : Byte) :
    (half r v).toNat = (v.toNat + if r = .halfUp then 1 else 0) / 2 := by
  have hv := v.isLt
  cases r
  case halfUp => exact Nat.mod_eq_of_lt (show (v.toNat + 1) / 2 < 2 ^ 8 by omega)
  case floor => exact Nat.mod_eq_of_lt (show v.toNat / 2 < 2 ^ 8 by omega)

theorem half_zero (r : AttenRounding) : half r 0 = 0 := by
  cases r <;> rfl

theorem half_mono (r : AttenRounding) {u v : Byte} (h : u.toNat ≤ v.toNat) : (half r u).toNat ≤ (half r v).toNat := by
  rw [toNat_half, toNat_half]
  exact Nat.div_le_div_right (Nat.add_le_add_right h _)

/-- R148: `half` is `v/2` but for an odd value under HALF_UP. -/
theorem toNat_half_eq_div_add (r : AttenRounding) (v : Byte) :
    (half r v).toNat = v.toNat / 2 + (if r = .halfUp ∧ v.toNat % 2 = 1 then 1 else 0) := by
  rw [toNat_half]
  cases r
  case halfUp =>
    simp only [true_and, if_true]
    split <;> omega
  case floor => simp

theorem toNat_half_le (r : AttenRounding) (v : Byte) : (half r v).toNat ≤ v.toNat := by
  rw [toNat_half_eq_div_add]
  split <;> omega

theorem toNat_half_le_128 (r : AttenRounding) (v : Byte) : (half r v).toNat ≤ 128 := by
  have hv := v.isLt
  rw [toNat_half_eq_div_add]
  split <;> omega

/-! The bytes of a color -/

@[simp] theorem redOf_mkColor (r g b : Byte) : redOf (mkColor r g b) = r := by
  have happend : mkColor r g b = (r ++ (g ++ b)).cast rfl := BitVec.append_assoc
  rw [redOf, happend]
  exact BitVec.extractLsb'_append_eq_left

@[simp] theorem greenOf_mkColor (r g b : Byte) : greenOf (mkColor r g b) = g := by
  have hlow : greenOf (mkColor r g b) = (r ++ g).extractLsb' 0 8 :=
    BitVec.extractLsb'_append_eq_of_le (by decide)
  rw [hlow]
  exact BitVec.extractLsb'_append_eq_right

@[simp] theorem blueOf_mkColor (r g b : Byte) : blueOf (mkColor r g b) = b :=
  BitVec.extractLsb'_append_eq_right

theorem byteOf_attenuate (r : AttenRounding) (ch : Primary) (c : Color) :
    byteOf ch (attenuate r c) = half r (byteOf ch c) := by
  cases ch
  case red => exact redOf_mkColor _ _ _
  case green => exact greenOf_mkColor _ _ _
  case blue => exact blueOf_mkColor _ _ _

/-- Settles O29, a law of `half` or of the attenuated color at a time. -/
theorem halfLaws : Obligations.HalfLaws :=
  ⟨fun v => ⟨toNat_half .halfUp v, toNat_half .floor v⟩,
    fun r c => ⟨byteOf_attenuate r .red c, byteOf_attenuate r .green c, byteOf_attenuate r .blue c⟩,
    toNat_half_le_128, toNat_half_le, fun r _ _ h => half_mono r h, half_zero, toNat_half_eq_div_add,
    rfl, rfl, rfl, rfl⟩

end Sys2Proof.Machine
end

section
/-! SUPPORT. What a frame holds (41_encode.md R143, R150 to R152; 30_encoding.md R96, R97): the two pulses of a bit, the frame
of a buffer of one color, and the one bits by their bytes. -/
namespace Sys2Proof.Machine

/-! The wire order -/

theorem wireBit_of_slot {p : Params} {s : Nat} {ch : Primary} (h : p.channelOrder.slots[s]? = some ch) (px : Color)
    (b : Nat) : wireBit p px s b = (byteOf ch px).getLsbD b := by
  simp only [wireBit, h]

theorem getElem?_sym_high (t : Table) (b : Bool) :
    (sym t b)[0]? = some ⟨if b then t.t1h.toNat else t.t0h.toNat, .high⟩ := by
  cases b <;> rfl

theorem getElem?_sym_low (t : Table) (b : Bool) :
    (sym t b)[1]? = some ⟨if b then t.t1l.toNat else t.t0l.toNat, .low⟩ := by
  cases b <;> rfl

theorem ChannelOrder.slot_lt {o : ChannelOrder} {s : Nat} {ch : Primary} (h : o.slots[s]? = some ch) : s < 3 :=
  ChannelOrder.length_slots o ▸ (List.getElem?_eq_some_iff.mp h).1

/-- Settles O32: the phases 0 and 1 of the symbol that a frame has for the bit. -/
theorem wireOrderIsLedSlotBitPhase : Obligations.WireOrderIsLedSlotBitPhase := by
  refine ⟨⟨rfl, rfl, rfl, rfl, rfl, rfl⟩, fun p t en snap => ⟨buildFrame_reset p t en snap, ?_⟩⟩
  intro i s b px ch hpx hch hb c v bit q
  have hbit : wireBit p (sentColor p en px) s b = bit := by
    rw [wireBit_of_slot hch]
    cases ch <;> rfl
  have hphase (ph : Nat) (hph : ph < 2) : (buildFrame p t en snap)[q + ph]? = (sym t bit)[ph]? := by
    rw [← hbit]
    exact getElem?_buildFrame p t en snap i s b ph px hpx (ChannelOrder.slot_lt hch) hb hph
  exact ⟨(hphase 0 (by decide)).trans (getElem?_sym_high t bit), (hphase 1 (by decide)).trans (getElem?_sym_low t bit)⟩

/-! Buffers of one color -/

theorem byteOf_sentColor (p : Params) (en : Bool) (ch : Primary) (c : Color) :
    byteOf ch (sentColor p en c) = if en then half p.attenRounding (byteOf ch c) else byteOf ch c := by
  cases en
  · rfl
  · exact byteOf_attenuate _ _ _

theorem wireBytes_of_forall_byteOf {p : Params} {px : Color} {v : Byte} (h : ∀ ch, byteOf ch px = v) :
    wireBytes p px = List.replicate 3 v := by
  rw [wireBytes, List.map_congr_left (fun ch _ => h ch), List.map_const', ChannelOrder.length_slots]

/-- The serialised bytes of a whole buffer in wire order (41_encode.md R152). -/
def frameBytes (p : Params) (en : Bool) (snap : Memory) : List Byte :=
  snap.flatMap fun px => wireBytes p (sentColor p en px)

theorem frameBits_eq_flatMap_frameBytes (p : Params) (en : Bool) (snap : Memory) :
    frameBits p en snap = (frameBytes p en snap).flatMap byteBits := List.flatMap_assoc.symm

theorem frameBytes_replicate {p : Params} {en : Bool} {px : Color} {v : Byte} (n : Nat)
    (h : ∀ ch, byteOf ch (sentColor p en px) = v) :
    frameBytes p en (List.replicate n px) = List.replicate (3 * n) v := by
  rw [frameBytes, List.flatMap_replicate, wireBytes_of_forall_byteOf h, List.flatten_replicate_replicate, Nat.mul_comm]

/-- Where every channel of the one color sends the byte `v`, the frame is that byte's symbols again and again. -/
theorem buildFrame_replicate {p : Params} {en : Bool} {px : Color} {v : Byte} (t : Table) (n : Nat)
    (h : ∀ ch, byteOf ch (sentColor p en px) = v) :
    buildFrame p t en (List.replicate n px)
      = (List.replicate (3 * n) ((byteBits v).map (sym t))).flatten.flatten ++ [rst t] := by
  rw [buildFrame, frameBits_eq_flatMap_frameBytes, frameBytes_replicate n h, List.flatMap_replicate, List.flatMap_def,
    List.map_flatten, List.map_replicate]

/-- A byte whose bits are all `b` gives eight symbols each time. -/
theorem buildFrame_replicate_of_constant {p : Params} {en : Bool} {px : Color} {v : Byte} {b : Bool} (t : Table) (n : Nat)
    (h : ∀ ch, byteOf ch (sentColor p en px) = v) (hv : byteBits v = List.replicate 8 b) :
    buildFrame p t en (List.replicate n px) = (List.replicate (24 * n) (sym t b)).flatten ++ [rst t] := by
  have hcount : 3 * n * 8 = 24 * n := by omega
  rw [buildFrame_replicate t n h, hv, List.map_replicate, List.flatten_replicate_replicate, hcount]

theorem byteOf_black (ch : Primary) : byteOf ch 0 = 0 := by
  cases ch <;> rfl

theorem byteOf_white (ch : Primary) : byteOf ch 0xFFFFFF = 0xFF := by
  cases ch <;> rfl

theorem byteOf_sentColor_black (p : Params) (en : Bool) (ch : Primary) : byteOf ch (sentColor p en 0) = 0 := by
  rw [byteOf_sentColor, byteOf_black, half_zero, ite_self]

theorem byteOf_sentColor_white (p : Params) (en : Bool) (ch : Primary) :
    byteOf ch (sentColor p en 0xFFFFFF) = if en then half p.attenRounding 0xFF else 0xFF := by
  rw [byteOf_sentColor, byteOf_white]

/-! The one bits of a frame -/

theorem count_true_byteBits (v : Byte) :
    (byteBits v).count true = ((List.range 8).filter fun b => v.getLsbD b).length := by
  have hbits : byteBits v = (List.range 8).reverse.map fun b => v.getLsbD b := rfl
  rw [hbits, List.map_reverse, List.count_reverse, List.count, List.countP_map, List.countP_eq_length_filter]
  congr 2
  funext b
  simp

theorem length_frameBytes (p : Params) (en : Bool) (snap : Memory) : (frameBytes p en snap).length = 3 * snap.length := by
  simp [frameBytes, wireBytes, List.length_flatMap, ChannelOrder.length_slots, Nat.mul_comm]

theorem Params.toNat_frameLen {p : Params} (h : 48 * p.ne + 1 < 2 ^ 32) :
    (BitVec.ofNat 32 p.frameLen).toNat = 48 * p.ne + 1 := Nat.mod_eq_of_lt h

/-- Settles O35: R8 bounds the length, and the bits are counted byte by byte. -/
theorem oneBitsAreThePopcounts : Obligations.OneBitsAreThePopcounts := by
  refine ⟨fun p hp => ?_, fun p en snap => ⟨length_frameBytes p en snap, length_frameBits p en snap, ?_⟩⟩
  · obtain ⟨-, -, -, -, -, -, -, hlen, -⟩ := p.ok_iff.mp hp
    exact Params.toNat_frameLen hlen
  · rw [frameBits_eq_flatMap_frameBytes, List.count_flatMap]
    exact congrArg List.sum (List.map_congr_left fun v _ => count_true_byteBits v)

end Sys2Proof.Machine
end

section
/-! SUPPORT. ENCODE as a command (41_encode.md R142 to R147), and what it, XMIT and CYCLE leave of their channel. -/
namespace Sys2Proof.Machine

section
variable {s : State} {c : Channel}

theorem exec_encode (hc : s.chan? s.cur = some c) :
    exec .encode s = .next (s.putChan s.cur (c.encode s.par s.tbl)) := exec_of_ne_tblInit nofun hc

theorem exec_encode_of_invalid (hc : s.chan? s.cur = some c) (hv : s.tbl.valid = false) :
    exec .encode s = .next (s.putChan s.cur c.clearEncErr.encodeFailed) := by
  rw [exec_encode hc, Channel.encode_invalid _ _ hv]

theorem exec_encode_of_valid (hc : s.chan? s.cur = some c) (hv : s.tbl.valid = true) :
    exec .encode s = .next (s.putChan s.cur (c.clearEncErr.encoded s.par s.tbl)) := by
  rw [exec_encode hc, Channel.encode_valid _ _ hv]

/-- The frame that a successful ENCODE leaves, found in the state it answers. -/
theorem exec_encode_frame (hc : s.chan? s.cur = some c) (hv : s.tbl.valid = true) :
    ∃ t d, exec .encode s = .next t ∧ t.chan? s.cur = some d ∧
      d.frame = buildFrame s.par s.tbl c.attenEn c.pix :=
  ⟨_, _, exec_encode_of_valid hc hv, State.chan?_putChan_self _ hc, rfl⟩

end

theorem Channel.getElem?_encoded_pix (p : Params) (t : Table) {c : Channel} {i : Nat} {px : Color}
    (h : c.pix[i]? = some px) :
    (c.encoded p t).pix[i]?
      = some (if c.attenEn = true ∧ p.attenInPlace = true then Machine.attenuate p.attenRounding px else px) := by
  rw [Channel.encoded_pix]
  simp only [Bool.and_eq_true]
  split
  · rw [Memory.attenuate, List.getElem?_map, h, Option.map_some]
  · exact h

theorem Channel.length_encoded_pix (p : Params) (t : Table) (c : Channel) :
    (c.encoded p t).pix.length = c.pix.length := by
  rw [Channel.encoded_pix]
  split
  · exact Memory.length_attenuate _ _
  · rfl

/-- Settles O17: the failed ENCODE on its channel is this record. -/
theorem encodeWithoutTableFails : Obligations.EncodeWithoutTableFails :=
  fun _ _ hc hv => exec_encode_of_invalid hc hv

/-- Settles O18: the buffer and FRAME_LEN are those of `Channel.encoded`. -/
theorem encodeWithTableBuildsTheFrame : Obligations.EncodeWithTableBuildsTheFrame := by
  intro s c hc hv hlen
  exact ⟨(c.clearEncErr.encoded s.par s.tbl).pix, BitVec.ofNat 32 s.par.frameLen, exec_encode_of_valid hc hv,
    Params.toNat_frameLen hlen, Channel.length_encoded_pix _ _ _,
    fun _ _ hpx => Channel.getElem?_encoded_pix (c := c.clearEncErr) _ _ hpx⟩

/-- Settles O33: every byte sent is 0, attenuated or not. -/
theorem blackBufferGivesZeroSymbols : Obligations.BlackBufferGivesZeroSymbols := by
  intro s c hc hv hblack
  obtain ⟨t, d, hexec, hd, hframe⟩ := exec_encode_frame hc hv
  refine ⟨t, d, hexec, hd, ?_⟩
  rw [hframe, hblack]
  exact buildFrame_replicate_of_constant s.tbl s.par.ne (byteOf_sentColor_black s.par c.attenEn) rfl

/-- Settles O34: every byte sent is 0xFF, and attenuated 0x80 or 0x7F. -/
theorem whiteBufferGivesOneSymbolsUnattenuated : Obligations.WhiteBufferGivesOneSymbolsUnattenuated := by
  intro s c hc hv hwhite zero one pattern
  obtain ⟨t, d, hexec, hd, hframe⟩ := exec_encode_frame hc hv
  refine ⟨t, d, hexec, hd, ?_⟩
  rw [hframe, hwhite]
  cases hen : c.attenEn with
  | false =>
    simp only [pattern, hen, if_true]
    exact buildFrame_replicate_of_constant (v := 0xFF) s.tbl s.par.ne (byteOf_sentColor_white s.par false) rfl
  | true =>
    simp only [pattern, hen, Bool.true_eq_false, if_false]
    rw [buildFrame_replicate s.tbl s.par.ne (byteOf_sentColor_white s.par true)]
    cases s.par.attenRounding <;> rfl

/-- R147 on one channel: ENCODE reads the buffer and ATTEN_EN of its channel and no other field of it. -/
theorem Channel.encode_frame_congr (p : Params) (t : Table) {c₁ c₂ : Channel} (hpix : c₁.pix = c₂.pix)
    (hen : c₁.attenEn = c₂.attenEn) :
    (c₁.encode p t).frame = (c₂.encode p t).frame ∧ (c₁.encode p t).frameClk = (c₂.encode p t).frameClk ∧
    (c₁.encode p t).frameLen = (c₂.encode p t).frameLen ∧
    (c₁.encode p t).frameValid = (c₂.encode p t).frameValid := by
  cases hv : t.valid
  · rw [Channel.encode_invalid p c₁ hv, Channel.encode_invalid p c₂ hv]
    exact ⟨rfl, rfl, rfl, rfl⟩
  · rw [Channel.encode_valid p c₁ hv, Channel.encode_valid p c₂ hv]
    simp [hpix, hen]

/-- Settles O37: the two runs make the same frame of their channels. -/
theorem frameDependsOnlyOnItsInputs : Obligations.FrameDependsOnlyOnItsInputs := by
  intro s₁ s₂ t₁ t₂ c₁ c₂ d₁ d₂ hc₁ hc₂ hpar htbl hpix hen hexec₁ hexec₂ hd₁ hd₂
  rw [exec_encode hc₁] at hexec₁
  rw [exec_encode hc₂] at hexec₂
  cases hexec₁
  cases hexec₂
  rw [State.chan?_putChan_self _ hc₁] at hd₁
  rw [State.chan?_putChan_self _ hc₂] at hd₂
  cases hd₁
  cases hd₂
  rw [hpar, htbl]
  exact Channel.encode_frame_congr s₂.par s₂.tbl hpix hen

/-! What ENCODE, XMIT and CYCLE leave of their channel -/

/-- `d` has the fields of `c` that none of ENCODE, XMIT and CYCLE writes. -/
structure Channel.SameBeyondFrame (c d : Channel) : Prop where
  attenEn : d.attenEn = c.attenEn
  clkHz : d.clkHz = c.clkHz
  pixIdx : d.pixIdx = c.pixIdx
  pixData : d.pixData = c.pixData
  dupWarn : d.dupWarn = c.dupWarn
  initFail : d.initFail = c.initFail
  illCmd : d.illCmd = c.illCmd
  stream : d.stream = c.stream
  prog : d.host.prog = c.host.prog
  inbox : d.host.inbox = c.host.inbox
  line : d.tx.line = c.tx.line

theorem Channel.encode_sameBeyondFrame (p : Params) (t : Table) (c : Channel) : c.SameBeyondFrame (c.encode p t) := by
  cases hv : t.valid
  · rw [Channel.encode_invalid p c hv]; constructor <;> rfl
  · rw [Channel.encode_valid p c hv]; constructor <;> rfl

theorem Channel.xmit_sameBeyondFrame (c : Channel) : c.SameBeyondFrame c.xmit := by
  cases hf : c.frameValid
  · rw [Channel.xmit_none hf]; constructor <;> rfl
  · rw [Channel.xmit_frame hf]; constructor <;> rfl

theorem Channel.cycle_sameBeyondFrame (p : Params) (t : Table) (c : Channel) : c.SameBeyondFrame (c.cycle p t) := by
  cases hv : t.valid
  · rw [Channel.cycle_invalid p c hv]; constructor <;> rfl
  · rw [Channel.cycle_valid p c hv]; constructor <;> rfl

theorem Channel.xmit_frameLen_encErr_frameClk (c : Channel) :
    c.xmit.frameLen = c.frameLen ∧ c.xmit.encErr = c.encErr ∧ c.xmit.frameClk = c.frameClk := by
  cases hf : c.frameValid
  · rw [Channel.xmit_none hf]; exact ⟨rfl, rfl, rfl⟩
  · rw [Channel.xmit_frame hf]; exact ⟨rfl, rfl, rfl⟩

theorem Channel.encode_xmitErr_busy_tx_host (p : Params) (t : Table) (c : Channel) :
    (c.encode p t).xmitErr = c.xmitErr ∧ (c.encode p t).busy = c.busy ∧ (c.encode p t).tx = c.tx ∧
      (c.encode p t).host = c.host := by
  cases hv : t.valid
  · rw [Channel.encode_invalid p c hv]; exact ⟨rfl, rfl, rfl, rfl⟩
  · rw [Channel.encode_valid p c hv]; exact ⟨rfl, rfl, rfl, rfl⟩

theorem Channel.encode_pix_of_kept {p : Params} {t : Table} {c : Channel}
    (h : t.valid = false ∨ c.attenEn = false ∨ p.attenInPlace = false) : (c.encode p t).pix = c.pix := by
  cases hv : t.valid
  · rw [Channel.encode_invalid p c hv]; rfl
  · rw [Channel.encode_valid p c hv, Channel.encoded_pix]
    rcases h with h | h | h
    · simp [hv] at h
    · simp [h]
    · simp [h]

theorem Channel.xmit_pix (c : Channel) : c.xmit.pix = c.pix := by
  cases hf : c.frameValid
  · rw [Channel.xmit_none hf]; rfl
  · rw [Channel.xmit_frame hf]; rfl

/-- The buffer CYCLE leaves is ENCODE's: the hand-over does not touch it. -/
theorem Channel.cycle_pix (p : Params) (t : Table) (c : Channel) : (c.cycle p t).pix = (c.encode p t).pix := by
  cases hv : t.valid
  · rw [Channel.cycle_invalid p c hv, Channel.encode_invalid p c hv]; rfl
  · rw [Channel.cycle_valid p c hv, Channel.encode_valid p c hv]; rfl

section
variable {i : Instr} (hi : i = .encode ∨ i = .xmit ∨ i = .cycle)
include hi

theorem Effect.chan_sameBeyondFrame (p : Params) (t : Table) (c : Channel) :
    c.SameBeyondFrame (Effect.chan p t c i) := by
  rcases hi with rfl | rfl | rfl
  · exact c.encode_sameBeyondFrame p t
  · exact c.xmit_sameBeyondFrame
  · exact c.cycle_sameBeyondFrame p t

theorem Effect.chan_pix_of_kept {p : Params} {t : Table} {c : Channel}
    (h : i = .xmit ∨ t.valid = false ∨ c.attenEn = false ∨ p.attenInPlace = false) :
    (Effect.chan p t c i).pix = c.pix := by
  rcases hi with rfl | rfl | rfl
  · exact Channel.encode_pix_of_kept (h.resolve_left nofun)
  · exact c.xmit_pix
  · exact (c.cycle_pix p t).trans (Channel.encode_pix_of_kept (h.resolve_left nofun))

end

/-- Settles O26: what all three keep, what XMIT and ENCODE keep besides, and the buffer. -/
theorem encodeAndTransmitFrame : Obligations.EncodeAndTransmitFrame := by
  intro i s t c hc hexec hi
  have hne : i ≠ .tblInit := by rintro rfl; simp at hi
  rw [exec_of_ne_tblInit hne hc] at hexec
  cases hexec
  obtain ⟨hatten, hclk, hidx, hdata, hdup, hinit, hill, hstream, hprog, hinbox, hline⟩ :=
    Effect.chan_sameBeyondFrame hi s.par s.tbl c
  refine ⟨rfl, _, State.chan?_putChan_self _ hc, hatten, hclk, hidx, hdata, hdup, hinit, hill, hstream, hprog, hinbox,
    hline, ?_, ?_, fun hkept a => ?_⟩
  · rintro rfl
    exact c.xmit_frameLen_encErr_frameClk
  · rintro rfl
    exact c.encode_xmitErr_busy_tx_host s.par s.tbl
  · rw [Effect.chan_pix_of_kept hi hkept, State.putChan_par]

end Sys2Proof.Machine
end

section
/-! SUPPORT. XMIT and CYCLE as commands (42_transmit.md R170 to R172, R178): the channel each leaves, and CYCLE as ENCODE
followed by XMIT. -/
namespace Sys2Proof.Machine

theorem exec_xmit {s : State} {c : Channel} (hc : s.chan? s.cur = some c) :
    exec .xmit s = .next (s.putChan s.cur c.xmit) := exec_of_ne_tblInit nofun hc

theorem exec_cycle {s : State} {c : Channel} (hc : s.chan? s.cur = some c) :
    exec .cycle s = .next (s.putChan s.cur (c.cycle s.par s.tbl)) := exec_of_ne_tblInit nofun hc

/-- A successful ENCODE leaves ENC_ERR 0 and a frame held, so CYCLE goes on to XMIT and XMIT hands that frame over. -/
theorem Channel.cycle_eq_xmit_encode (p : Params) {t : Table} (c : Channel) (h : t.valid = true) :
    c.cycle p t = (c.encode p t).xmit := by
  have hframe : (c.encode p t).frameValid = true := by rw [Channel.encode_valid p c h]; rfl
  rw [Channel.xmit_frame hframe, Channel.encode_valid p c h, Channel.cycle_valid p c h]
  rfl

/-- Settles O23: on the current channel CYCLE is XMIT after ENCODE, and the second command finds the first one's channel. -/
theorem cycleIsEncodeThenXmit : Obligations.CycleIsEncodeThenXmit := by
  intro s t hv hexec
  obtain ⟨c, hc, -⟩ := exec_next hexec
  rw [exec_encode hc] at hexec
  cases hexec
  rw [exec_cycle hc, Channel.cycle_eq_xmit_encode _ _ hv]
  have hput : (s.putChan s.cur (c.encode s.par s.tbl)).chan? s.cur = some (c.encode s.par s.tbl) :=
    State.chan?_putChan_self _ hc
  rw [exec_xmit hput, State.putChan_cur, State.putChan_putChan]

/-- Settles O22: the buffer and FRAME_LEN are those of `Channel.encoded`. -/
theorem cycleEncodesAndHandsOver : Obligations.CycleEncodesAndHandsOver := by
  intro s c hc hv
  refine ⟨(c.clearEncErr.encoded s.par s.tbl).pix, BitVec.ofNat 32 s.par.frameLen, ?_, Params.toNat_frameLen,
    Channel.length_encoded_pix _ _ _, fun _ _ hpx => Channel.getElem?_encoded_pix (c := c.clearEncErr) _ _ hpx⟩
  rw [exec_cycle hc, Channel.cycle_valid _ _ hv]
  rfl

/-- Settles O19: XMIT without a frame is this record. -/
theorem xmitWithoutFrameFails : Obligations.XmitWithoutFrameFails := by
  intro s c hc hf
  rw [exec_xmit hc, Channel.xmit_none hf]
  rfl

/-- Settles O20: XMIT with a frame is this record. -/
theorem xmitHandsTheFrameOver : Obligations.XmitHandsTheFrameOver := by
  intro s c hc hf
  rw [exec_xmit hc, Channel.xmit_frame hf]
  rfl

/-- Settles O21: CYCLE with an invalid table ends with the failed ENCODE. -/
theorem cycleWithoutTableFails : Obligations.CycleWithoutTableFails := by
  intro s c hc hv
  rw [exec_cycle hc, Channel.cycle_invalid _ _ hv]
  rfl

end Sys2Proof.Machine
end

section
/-! SUPPORT. The transmitter's step (42_transmit.md R173, R175) in each of its two branches, the result it reports, and what
a host meets while a transmission is under way (R174) and after one has failed (R177). -/
namespace Sys2Proof.Machine

/-! The two branches of a step -/

section
variable {c : Channel} {d : Draw} {r : TxResult}

theorem Channel.txStep_emit {q : Pulse} (r : TxResult) (hq : c.tx.frame[c.tx.pos]? = some q) :
    c.txStep .cont r = c.emit q := by
  simp only [Channel.txStep, hq]

theorem Channel.txStep_finish (r : TxResult) (h : d = .fail ∨ c.tx.frame.length ≤ c.tx.pos) :
    c.txStep d r = c.finish (resultOf d r) := by
  rcases Channel.txStep_cases d r c with ⟨q, hd, hq, -⟩ | ⟨-, heq⟩
  · have hpos := (List.getElem?_eq_some_iff.mp hq).1
    rcases h with h | h
    · exact nomatch hd.symm.trans h
    · omega
  · exact heq

theorem resultOf_eq_fail_iff : resultOf d r = .fail ↔ d = .fail ∨ r = .fail := by
  cases d <;> simp [resultOf]

/-- FAIL by either draw: at any pulse, or as the result of the whole frame. -/
theorem Channel.txStep_fail (h : d = .fail ∨ r = .fail ∧ c.tx.frame.length ≤ c.tx.pos) :
    c.txStep d r = c.finish .fail := by
  rw [Channel.txStep_finish r (h.imp_right And.right), resultOf_eq_fail_iff.mpr (h.imp_right And.left)]

/-- An emitting step leaves the transmitter active, so one that does not has finished. -/
theorem Channel.finished_of_inactive (hactive : c.tx.active = true) (h : (c.txStep d r).tx.active = false) :
    (d = .fail ∨ c.tx.frame.length ≤ c.tx.pos) ∧ c.txStep d r = c.finish (resultOf d r) := by
  rcases Channel.txStep_cases d r c with ⟨q, -, -, heq⟩ | hfinish
  · rw [heq, Channel.emit_tx] at h
    exact nomatch hactive.symm.trans h
  · exact hfinish

end

/-- Settles O42: the emitting branch. -/
theorem transmitterEmitsTheNextPulse : Obligations.TransmitterEmitsTheNextPulse := by
  intro s k r c q hmove hc hactive hq
  rw [step_tx hmove hc hactive, Channel.txStep_emit r hq]
  rfl

/-- Settles O43: the finishing branch, whose result is FAIL exactly when one of the draws is. -/
theorem transmitterReportsItsResult : Obligations.TransmitterReportsItsResult := by
  intro s k d r c hmove hc hactive hfinish e
  rw [step_tx hmove hc hactive, Channel.txStep_finish r hfinish, Channel.finish_eq]
  simp only [resultOf_eq_fail_iff]
  by_cases hfail : d = .fail ∨ r = .fail
  · simp only [if_pos hfail]; rfl
  · simp only [if_neg hfail]; rfl

/-- Settles O44: soundness says what an active transmitter has sent, and a finishing step sends nothing more; without FAIL
it finishes only at the end of the frame. -/
theorem okMeansTheWholeFrameWasEmitted : Obligations.OkMeansTheWholeFrameWasEmitted := by
  intro s t k d r c e hs hmove hc hactive hstep he hidle
  rw [step_tx hmove hc hactive] at hstep
  cases hstep
  rw [State.chan?_putChan_self (s := s.advance) _ hc] at he
  cases he
  have hsound := hs.chan hc
  obtain ⟨hend, hfinish⟩ := Channel.finished_of_inactive hactive hidle
  rw [hfinish, Channel.finish_eq]
  have hsent := hsound.txSent hactive
  refine ⟨⟨hsound.txPos, rfl, hsent⟩, ?_⟩
  rintro rfl rfl
  have hpos : c.tx.pos = c.tx.frame.length := Nat.le_antisymm hsound.txPos (hend.resolve_left nofun)
  obtain ⟨-, -, hlen⟩ := hsound.txFrame hactive
  rw [Tx.sent, hpos, List.take_length] at hsent
  exact ⟨hpos, hsent, hlen, rfl, rfl⟩

/-! A run that ends in FAIL -/

/-- The channel after the next `n` pulses of its frame, but for the level of the line. -/
def Channel.sendPulses (n : Nat) (c : Channel) : Channel :=
  { c with
    tx := { c.tx with pos := c.tx.pos + n }
    stream := c.stream ++ ((c.tx.frame.drop c.tx.pos).take n).map fun q => ⟨q, c.tx.clk⟩ }

@[simp] theorem Channel.sendPulses_zero (c : Channel) : c.sendPulses 0 = c := by
  simp [Channel.sendPulses]

/-- One pulse and then `n` are `n + 1`; the result makes the line LOW whatever it was. -/
theorem Channel.finish_sendPulses_emit {c : Channel} {q : Pulse} (r : TxResult) (n : Nat)
    (hq : c.tx.frame[c.tx.pos]? = some q) :
    ((c.emit q).sendPulses n).finish r = (c.sendPulses (n + 1)).finish r := by
  obtain ⟨hpos, rfl⟩ := List.getElem?_eq_some_iff.mp hq
  simp only [Channel.finish_eq, Channel.sendPulses, Channel.emit, List.append_assoc, List.drop_eq_getElem_cons hpos,
    Nat.add_right_comm]
  rfl

/-- From any position, `n` draws of CONT and one FAIL send the next `n` pulses and report FAIL. -/
theorem run_cont_then_fail (k n : Nat) {s : State} {c : Channel} (hc : s.chan? k = some c)
    (hactive : c.tx.active = true) (hn : c.tx.pos + n ≤ c.tx.frame.length)
    (hmoves : s.moves = List.replicate n (.tx k .cont .ok) ++ [.tx k .fail .ok]) :
    ∃ t, Host.Core.run Sys2Proof.core (n + 1) s = .next t ∧ t.chan? k = some ((c.sendPulses n).finish .fail) := by
  induction n generalizing s c with
  | zero =>
    have hmove : s.nextMove = .tx k .fail .ok := by rw [State.nextMove, hmoves]; rfl
    have hstep := step_tx hmove hc hactive
    rw [Channel.txStep_fail (.inl rfl)] at hstep
    rw [Channel.sendPulses_zero]
    exact ⟨_, run_succ 0 hstep, State.chan?_putChan_self (s := s.advance) _ hc⟩
  | succ n ih =>
    have hmove : s.nextMove = .tx k .cont .ok := by rw [State.nextMove, hmoves]; rfl
    have hq := List.getElem?_eq_getElem (l := c.tx.frame) (i := c.tx.pos) (by omega)
    have hstep := step_tx hmove hc hactive
    rw [Channel.txStep_emit _ hq] at hstep
    rw [run_succ (n + 1) hstep, ← Channel.finish_sendPulses_emit .fail n hq]
    exact ih (State.chan?_putChan_self (s := s.advance) _ hc) hactive (by simp; omega)
      (by simp [hmoves, List.replicate_succ])

/-- Settles O45: the run from the first pulse on. -/
theorem failAdmitsEveryPrefix : Obligations.FailAdmitsEveryPrefix := by
  intro s k c n hc hactive hpos hn hmoves
  obtain ⟨t, hrun, ht⟩ := run_cont_then_fail k n hc hactive (by omega) hmoves
  have hstream : c.stream ++ ((c.tx.frame.drop c.tx.pos).take n).map (fun q => (⟨q, c.tx.clk⟩ : Emission))
      = c.stream ++ (c.tx.frame.take n).map (fun q => (⟨q, c.tx.clk⟩ : Emission)) := by
    rw [hpos, List.drop_zero]
  exact ⟨t, _, hrun, ht, hstream, rfl, rfl, rfl, rfl, rfl, rfl⟩

/-! The host -/

/-- Settles O46: the failed step leaves a free host and an idle bank, so the host's next command runs. -/
theorem failureIsFatalToTheCycleOnly : Obligations.FailureIsFatalToTheCycleOnly := by
  intro s t k d r c e hmove hc hactive hfail hstep he
  rw [step_tx hmove hc hactive, Channel.txStep_fail hfail] at hstep
  cases hstep
  have he' := he
  rw [State.chan?_putChan_self (s := s.advance) _ hc] at he'
  cases he'
  refine ⟨rfl, rfl, rfl, rfl, fun j hj => State.chan?_putChan_other s.advance _ hj, rfl, rfl, rfl, ?_⟩
  intro a rest w hprog ha hwrite hnext
  have hexec := stepRunsTheDecodedCommand _ k _ a rest _ w hnext he rfl rfl hprog ha hwrite rfl
  have hissued := step_host_access hnext he rfl rfl hprog ha
  exact ⟨_, hissued, hexec.symm.trans hissued⟩

/-- Settles O54: the host has no step, and the bus does not stop the machine either, since the access is admitted. -/
theorem heldHostAndBusyBankWait : Obligations.HeldHostAndBusyBankWait := by
  intro s k c hmove hc hwait
  have hstep : step s = hostMove k s.advance := by rw [step, hmove]; rfl
  have hdisabled : ¬ s.advance.enabled (.host k) := by
    rintro ⟨c', a, rest, off, hc', hfree, hidle, -, -⟩
    obtain rfl := Option.some.inj (hc.symm.trans hc')
    simp [hfree, hidle] at hwait
  refine ⟨?_, rfl, rfl⟩
  rw [hstep]
  rcases hostMove_of_not_enabled hdisabled with hnext | ⟨f, hfault⟩
  · exact hnext
  · obtain ⟨c', a, rest, hc', hfree, hprog, herr⟩ := hostMove_fault hfault
    obtain rfl := Option.some.inj (hc.symm.trans hc')
    rcases hwait with hheld | ⟨-, hadmitted⟩
    · exact nomatch hheld.symm.trans hfree
    · obtain ⟨off, hok⟩ := hadmitted a rest hprog
      exact nomatch hok.symm.trans herr

end Sys2Proof.Machine
end

section
/-! SUPPORT. What every step keeps of the hosts' programs and of the environment's moves, and that admitted programs never
stop the machine (60_exceptions.md R237). -/
namespace Sys2Proof.Machine

/-! The hosts' programs -/

theorem regWrite_host (v : Word) (c : Channel) (r : Reg) : (regWrite v c r).host = c.host := by
  rcases r with r | _
  · cases r <;> rfl
  · rfl

theorem Effect.chan_prog (p : Params) (t : Table) (c : Channel) (i : Instr) :
    (Effect.chan p t c i).host.prog = c.host.prog := by
  cases i with
  | encode => exact (c.encode_sameBeyondFrame p t).prog
  | xmit => exact c.xmit_sameBeyondFrame.prog
  | cycle => exact (c.cycle_sameBeyondFrame p t).prog
  | tblInit =>
    simp only [Effect.chan]
    split
    · rfl
    · split <;> rfl
  | nop | pixWr | pixRd | pixFill | pixClr | clrStat | illegal => rfl

theorem Effect.access_prog (p : Params) (t : Table) (c : Channel) (r : Reg) (d : Dir) :
    (Effect.access p t c r d).host.prog = c.host.prog := by
  cases d with
  | read => rfl
  | write w =>
    simp only [Effect.access]
    split
    · exact Effect.chan_prog p t c _
    · rw [regWrite_host]

theorem Channel.txStep_prog (d : Draw) (r : TxResult) (c : Channel) : (c.txStep d r).host.prog = c.host.prog := by
  rcases Channel.txStep_cases d r c with ⟨q, -, -, heq⟩ | ⟨-, heq⟩
  · rw [heq, Channel.emit_host]
  · rw [heq, Channel.finish_eq]

/-- A step takes accesses from the front of a host's program and adds none. -/
theorem step_prog_suffix {s t : State} {k : Nat} {d : Channel} (hstep : step s = .next t) (hd : t.chan? k = some d) :
    ∃ c, s.chan? k = some c ∧ d.host.prog <:+ c.host.prog := by
  rcases step_next hstep with rfl | ⟨j, c, a, rest, off, -, hc, -, -, -, -, rfl⟩ | ⟨j, draw, r, c, -, hc, -, rfl⟩ |
    ⟨-, rfl⟩
  · exact ⟨d, hd, List.suffix_rfl⟩
  · rw [State.chan?_afterAccess (s := s.advance) k _ _ hc] at hd
    split at hd
    · subst k
      cases hd
      refine ⟨c, hc, ?_⟩
      rw [Effect.access_prog]
      exact List.tail_suffix _
    · exact ⟨d, hd, List.suffix_rfl⟩
  · by_cases hkj : k = j
    · subst hkj
      rw [State.chan?_putChan_self (s := s.advance) _ hc] at hd
      cases hd
      exact ⟨c, hc, by rw [Channel.txStep_prog]⟩
    · rw [State.chan?_putChan_other _ _ hkj] at hd
      exact ⟨d, hd, List.suffix_rfl⟩
  · rw [State.chan?_blockReset] at hd
    obtain ⟨c, hc, rfl⟩ := Option.map_eq_some_iff.mp hd
    exact ⟨c, hc, List.suffix_rfl⟩

/-! The parameters and the moves -/

theorem step_par_moves {s t : State} (hstep : step s = .next t) : t.par = s.par ∧ t.moves = s.moves.tail := by
  rcases step_next hstep with rfl | ⟨_, _, _, _, _, -, -, -, -, -, -, rfl⟩ | ⟨_, _, _, _, -, -, -, rfl⟩ | ⟨-, rfl⟩ <;>
    exact ⟨rfl, rfl⟩

/-! No step is refused -/

/-- An agent that is enabled takes its step, another leaves the machine as it is or stops it at the bus. -/
theorem step_next_or_fault (s : State) : (∃ t, step s = .next t) ∨ ∃ f, step s = .fault f := by
  cases hmove : s.nextMove with
  | host k =>
    by_cases hen : s.enabled (.host k)
    · obtain ⟨c, a, rest, off, hc, hfree, hidle, hprog, ha⟩ := hen
      exact .inl ⟨_, step_host_access hmove hc hfree hidle hprog ha⟩
    · rw [step, hmove]
      exact (hostMove_of_not_enabled (mt (State.enabled_advance s _).mp hen)).imp_left fun h => ⟨_, h⟩
  | tx k d r =>
    by_cases hen : s.enabled (.tx k)
    · obtain ⟨c, hc, hactive⟩ := hen
      exact .inl ⟨_, step_tx hmove hc hactive⟩
    · rw [step, hmove]
      exact .inl ⟨_, txMove_of_not_enabled d r (mt (State.enabled_advance s _).mp hen)⟩
  | reset =>
    rw [step, hmove]
    exact .inl ⟨_, rfl⟩

theorem State.ProgramsAdmitted.step_ne_fault {s : State} (h : s.ProgramsAdmitted) (f : Fault) : step s ≠ .fault f := by
  intro hfault
  obtain ⟨k, c, a, rest, -, hc, -, hprog, herr⟩ := step_fault hfault
  obtain ⟨off, hok⟩ := h k c hc a (by simp [hprog])
  exact nomatch hok.symm.trans herr

theorem State.ProgramsAdmitted.of_step {s t : State} (h : s.ProgramsAdmitted) (hstep : step s = .next t) :
    t.ProgramsAdmitted := by
  intro k d hd a ha
  obtain ⟨c, hc, hsuffix⟩ := step_prog_suffix hstep hd
  rw [(step_par_moves hstep).1]
  exact h k c hc a (hsuffix.subset ha)

/-- Hosts that keep to the bus rules go on doing so, and the machine goes on. -/
theorem State.ProgramsAdmitted.exists_step {s : State} (h : s.ProgramsAdmitted) :
    ∃ t, step s = .next t ∧ t.ProgramsAdmitted := by
  rcases step_next_or_fault s with ⟨t, hstep⟩ | ⟨f, hfault⟩
  · exact ⟨t, hstep, h.of_step hstep⟩
  · exact absurd hfault (h.step_ne_fault f)

end Sys2Proof.Machine
end

section
/-! SUPPORT. The release of a held host (42_transmit.md R174, R180). While the host is held every step of its transmitter
lessens the steps the transmitter has left, and no other agent's step touches them; a block reset releases the host. -/
namespace Sys2Proof.Machine

/-! A held host, and the steps of its transmitter -/

/-- HELD[k] is 1. -/
def State.HostHeld (s : State) (k : Nat) : Prop := ∃ c, s.chan? k = some c ∧ c.host.held = true

/-- The steps an active transmitter has left at most: a pulse each, and the result (42_transmit.md R173, R175). -/
def Tx.stepsLeft (x : Tx) : Nat := x.frame.length - x.pos + 1

/-- The steps `TX_k` has left at most, 0 where there is no channel `k`. -/
def State.txStepsLeft (s : State) (k : Nat) : Nat := ((s.chan? k).map fun c => c.tx.stepsLeft).getD 0

/-- HELD[k] is 0, and the agent of the move before was the transmitter or it was a block reset. -/
def ReleasedBy (m : Move) (t : State) (k : Nat) : Prop :=
  ∃ d, t.chan? k = some d ∧ d.host.held = false ∧ (Move.agent m = some (.tx k) ∨ m = .reset)

section
variable {s t : State} {k : Nat} {c : Channel}

theorem State.txStepsLeft_of_chan (hc : s.chan? k = some c) : s.txStepsLeft k = c.tx.stepsLeft := by
  rw [State.txStepsLeft, hc]; rfl

theorem State.HostHeld.txStepsLeft_pos (h : s.HostHeld k) : 0 < s.txStepsLeft k := by
  obtain ⟨c, hc, -⟩ := h
  rw [State.txStepsLeft_of_chan hc]
  exact Nat.succ_pos _

/-- The bound of R180: the frame's `48*NE + 1` pulses, and the result. -/
theorem State.HostHeld.txStepsLeft_le (h : s.HostHeld k) (hs : s.Sound) : s.txStepsLeft k ≤ 48 * s.par.ne + 2 := by
  obtain ⟨c, hc, hheld⟩ := h
  have hsound := hs.chan hc
  obtain ⟨-, -, hlen⟩ := hsound.txFrame (hsound.heldActive ▸ hheld)
  rw [State.txStepsLeft_of_chan hc, Tx.stepsLeft, hlen, Params.frameLen]
  omega

/-- The transmitter of a held host has a step. -/
theorem State.HostHeld.enabled_tx (h : s.HostHeld k) (hs : s.Sound) : s.enabled (.tx k) := by
  obtain ⟨c, hc, hheld⟩ := h
  exact ⟨c, hc, (hs.chan hc).heldActive ▸ hheld⟩

/-- An emitting step is one of the steps left, and the other step of an active transmitter releases its host. -/
theorem Channel.txStep_stepsLeft (d : Draw) (r : TxResult) (c : Channel) :
    (c.txStep d r).host = c.host ∧ (c.txStep d r).tx.stepsLeft + 1 = c.tx.stepsLeft ∨
      (c.txStep d r).host.held = false := by
  rcases Channel.txStep_cases d r c with ⟨q, -, hq, heq⟩ | ⟨-, heq⟩
  · have hpos := (List.getElem?_eq_some_iff.mp hq).1
    refine .inl ?_
    rw [heq]
    refine ⟨rfl, ?_⟩
    simp only [Tx.stepsLeft, Channel.emit_tx]
    omega
  · exact .inr (by rw [heq, Channel.finish_eq])

/-- A move of another agent leaves the channel of a held host as it is, and a block reset releases the host. -/
theorem step_chan_of_not_tx (hc : s.chan? k = some c) (hheld : c.host.held = true)
    (hmove : Move.isTxOf k s.nextMove = false) (hstep : step s = .next t) :
    t.chan? k = some c ∨ s.nextMove = .reset ∧ t.chan? k = some (c.blockReset s.par) := by
  rcases step_next hstep with rfl | ⟨j, c', a, rest, off, -, hc', hfree, -, -, -, rfl⟩ |
    ⟨j, draw, r, c', hj, -, -, rfl⟩ | ⟨hreset, rfl⟩
  · exact .inl hc
  · refine .inl ?_
    have hkj : k ≠ j := by
      rintro rfl
      obtain rfl := Option.some.inj (hc.symm.trans hc')
      exact nomatch hheld.symm.trans hfree
    rw [State.chan?_afterAccess (s := s.advance) k _ _ hc', if_neg hkj]
    exact hc
  · refine .inl ?_
    have hkj : k ≠ j := by
      rintro rfl
      simp [hj, Move.isTxOf] at hmove
    rw [State.chan?_putChan_other _ _ hkj]
    exact hc
  · refine .inr ⟨hreset, ?_⟩
    rw [State.chan?_blockReset, State.chan?_advance, hc]
    rfl

theorem Move.eq_tx_of_isTxOf {m : Move} (h : Move.isTxOf k m = true) : ∃ d r, m = .tx k d r := by
  cases m with
  | tx j d r => exact ⟨d, r, by rw [eq_of_beq h]⟩
  | host j => exact nomatch h
  | reset => exact nomatch h

/-- A step leaves a held host held, and uses one of its transmitter's steps if it is that agent's; or it releases the host. -/
theorem step_of_held (hs : s.Sound) (hheld : s.HostHeld k) (hstep : step s = .next t) :
    t.HostHeld k ∧ t.txStepsLeft k + (if Move.isTxOf k s.nextMove then 1 else 0) = s.txStepsLeft k ∨
      ReleasedBy s.nextMove t k := by
  obtain ⟨c, hc, hheld⟩ := hheld
  rw [State.txStepsLeft_of_chan hc]
  cases hmove : Move.isTxOf k s.nextMove with
  | false =>
    rcases step_chan_of_not_tx hc hheld hmove hstep with ht | ⟨hreset, ht⟩
    · exact .inl ⟨⟨c, ht, hheld⟩, by rw [State.txStepsLeft_of_chan ht]; rfl⟩
    · exact .inr ⟨_, ht, rfl, .inr hreset⟩
  | true =>
    obtain ⟨d, r, htx⟩ := Move.eq_tx_of_isTxOf hmove
    rw [step_tx htx hc ((hs.chan hc).heldActive ▸ hheld)] at hstep
    cases hstep
    have ht := State.chan?_putChan_self (s := s.advance) (c.txStep d r) hc
    rcases Channel.txStep_stepsLeft d r c with ⟨hhost, hleft⟩ | hfree
    · refine .inl ⟨⟨_, ht, by rw [hhost, hheld]⟩, ?_⟩
      rw [State.txStepsLeft_of_chan ht]
      exact hleft
    · exact .inr ⟨_, ht, hfree, .inl ((Move.isTxOf_iff k _).mp hmove)⟩

end

/-! Listed moves -/

/-- As many listed moves of the transmitter as it has steps left release its host on the way. -/
theorem run_releases {k : Nat} {l : List Move} {s : State} (hmoves : s.moves = l) (hs : s.Sound)
    (hprogs : s.ProgramsAdmitted) (hheld : s.HostHeld k) (hcount : s.txStepsLeft k ≤ l.countP (Move.isTxOf k)) :
    ∃ j, j ≤ l.length ∧
      ∃ t d, Host.Core.run Sys2Proof.core j s = .next t ∧ t.chan? k = some d ∧ d.host.held = false := by
  induction l generalizing s with
  | nil => exact absurd hcount (Nat.not_le.mpr hheld.txStepsLeft_pos)
  | cons m l ih =>
    obtain ⟨t, hstep, htprogs⟩ := hprogs.exists_step
    have hnext : s.nextMove = m := by rw [State.nextMove, hmoves]
    have htmoves : t.moves = l := by rw [(step_par_moves hstep).2, hmoves]; rfl
    rcases step_of_held hs hheld hstep with ⟨htheld, hleft⟩ | ⟨d, hd, hfree, -⟩
    · rw [List.countP_cons] at hcount
      rw [hnext] at hleft
      obtain ⟨j, hj, hrun⟩ :=
        ih htmoves (everyStepKeepsTheStateSound s t hs hstep) htprogs htheld (by omega)
      exact ⟨j + 1, Nat.succ_le_succ hj, by rwa [run_succ j hstep]⟩
    · exact ⟨1, by simp, t, d, run_succ 0 hstep, hd, hfree⟩

/-- Settles O47: a held host's transmitter has at most `48*NE + 2` steps left, and another host is free at once. -/
theorem transmissionCompletesInBoundedSteps : Obligations.TransmissionCompletesInBoundedSteps := by
  intro s k c hs hprogs hc hcount
  cases hheld : c.host.held with
  | false => exact ⟨0, Nat.zero_le _, s, c, rfl, hc, hheld⟩
  | true =>
    have hheld : s.HostHeld k := ⟨c, hc, hheld⟩
    exact run_releases rfl hs hprogs hheld ((hheld.txStepsLeft_le hs).trans hcount)

/-! Executions -/

/-- How many of the `i` moves from moment `n` on are the transmitter's. -/
def txMoveCount (moves : Nat → Move) (k n i : Nat) : Nat :=
  (List.range' n i).countP fun j => Move.isTxOf k (moves j)

theorem txMoveCount_succ (moves : Nat → Move) (k n i : Nat) :
    txMoveCount moves k n (i + 1) = txMoveCount moves k n i + if Move.isTxOf k (moves (n + i)) then 1 else 0 := by
  rw [txMoveCount, List.range'_1_concat, List.countP_append, List.countP_singleton]
  rfl

theorem txMoveCount_mono (moves : Nat → Move) (k n : Nat) {i j : Nat} (h : i ≤ j) :
    txMoveCount moves k n i ≤ txMoveCount moves k n j :=
  (List.range'_sublist_right.mpr h).countP_le

theorem ReleasedBy.not_hostHeld {m : Move} {t : State} {k : Nat} (h : ReleasedBy m t k) : ¬ t.HostHeld k := by
  rintro ⟨c, hc, hheld⟩
  obtain ⟨d, hd, hfree, -⟩ := h
  obtain rfl := Option.some.inj (hc.symm.trans hd)
  exact nomatch hheld.symm.trans hfree

/-- Soundness does not look at the listed moves. -/
theorem State.Sound.withMoves {s : State} (l : List Move) (h : s.Sound) : { s with moves := l }.Sound := { h with }

section
variable {e : Nat → State} {moves : Nat → Move} (hexec : IsExecution e moves)
include hexec

/-- A move of an execution, as a step of the state with that move listed. -/
theorem IsExecution.step_eq (n : Nat) : step { e n with moves := moves n :: (e n).moves.tail } = .next (e (n + 1)) :=
  (step_withMove (moves n) (e n)).trans (hexec n)

variable (hsound : (e 0).Sound)
include hsound

theorem IsExecution.sound (n : Nat) : (e n).Sound := by
  induction n with
  | zero => exact hsound
  | succ n ih => exact everyStepKeepsTheStateSound _ _ (ih.withMoves _) (hexec.step_eq n)

/-- `step_of_held` at a moment of an execution. -/
theorem IsExecution.next_of_held {k n : Nat} (hheld : (e n).HostHeld k) :
    (e (n + 1)).HostHeld k ∧
        (e (n + 1)).txStepsLeft k + (if Move.isTxOf k (moves n) then 1 else 0) = (e n).txStepsLeft k ∨
      ReleasedBy (moves n) (e (n + 1)) k :=
  step_of_held ((hexec.sound hsound n).withMoves (moves n :: (e n).moves.tail)) hheld (hexec.step_eq n)

/-- While a host is held, the steps its transmitter has taken and those it has left are what it had. -/
theorem IsExecution.stepsLeft_add_count {k n i : Nat} (hheld : ∀ j ≤ i, (e (n + j)).HostHeld k) :
    (e (n + i)).txStepsLeft k + txMoveCount moves k n i = (e n).txStepsLeft k := by
  induction i with
  | zero => rfl
  | succ i ih =>
    have hi := ih fun j hj => hheld j (Nat.le_succ_of_le hj)
    rw [txMoveCount_succ]
    rcases hexec.next_of_held hsound (hheld i (Nat.le_succ i)) with ⟨-, hleft⟩ | hreleased
    · rw [← Nat.add_assoc n i 1]
      omega
    · exact absurd (hheld (i + 1) (Nat.le_refl _)) hreleased.not_hostHeld

/-- The transmitter of a host held for ever has a step for ever, so under weak fairness it moves any number of times. -/
theorem IsExecution.exists_le_txMoveCount (hfair : WeaklyFair e moves) {k n : Nat}
    (hheld : ∀ j, (e (n + j)).HostHeld k) (r : Nat) : ∃ i, r ≤ txMoveCount moves k n i := by
  induction r with
  | zero => exact ⟨0, Nat.zero_le _⟩
  | succ r ih =>
    obtain ⟨i, hi⟩ := ih
    have henabled : ∀ m, n + i ≤ m → (e m).enabled (.tx k) := by
      intro m hm
      obtain ⟨j, rfl⟩ := Nat.exists_eq_add_of_le (Nat.le_of_add_right_le hm)
      exact (hheld j).enabled_tx (hexec.sound hsound _)
    obtain ⟨m, hm, hagent⟩ := hfair (.tx k) (n + i) henabled
    obtain ⟨j, rfl⟩ := Nat.exists_eq_add_of_le (Nat.le_of_add_right_le hm)
    refine ⟨j + 1, ?_⟩
    have hmono := txMoveCount_mono moves k n (show i ≤ j by omega)
    rw [txMoveCount_succ, if_pos ((Move.isTxOf_iff k _).mpr hagent)]
    omega

/-- A held host is released: more steps than its transmitter has left, it cannot take. -/
theorem IsExecution.exists_not_held (hfair : WeaklyFair e moves) (k n : Nat) : ∃ i, ¬ (e (n + i)).HostHeld k := by
  by_contra hnever
  have hheld : ∀ j, (e (n + j)).HostHeld k := fun j => not_not.mp fun hj => hnever ⟨j, hj⟩
  obtain ⟨i, hi⟩ := hexec.exists_le_txMoveCount hsound hfair hheld ((e n).txStepsLeft k + 1)
  have hcount := hexec.stepsLeft_add_count hsound (i := i) fun j _ => hheld j
  omega

/-- The first moment after `n` at which a host held at `n` is free, with the move that released it. -/
theorem IsExecution.exists_release (hfair : WeaklyFair e moves) {k n : Nat} (hn : (e n).HostHeld k) :
    ∃ i, (∀ j ≤ i, (e (n + j)).HostHeld k) ∧ ReleasedBy (moves (n + i)) (e (n + i + 1)) k := by
  classical
  have hfree := hexec.exists_not_held hsound hfair k n
  obtain ⟨i, hi⟩ : ∃ i, Nat.find hfree = i + 1 :=
    Nat.exists_eq_succ_of_ne_zero fun h0 => (Nat.find_eq_zero hfree).mp h0 hn
  have hheld : ∀ j ≤ i, (e (n + j)).HostHeld k := fun j hj => not_not.mp (Nat.find_min hfree (by omega))
  refine ⟨i, hheld, ?_⟩
  have hfirst : ¬ (e (n + (i + 1))).HostHeld k := hi ▸ Nat.find_spec hfree
  exact (hexec.next_of_held hsound (hheld i (Nat.le_refl i))).resolve_left fun h => hfirst h.1

end

/-- Settles O60: at the first release the transmitter has taken at most the steps it had left, one of them perhaps the
release itself. -/
theorem heldHostIsReleasedUnderWeakFairness : Obligations.HeldHostIsReleasedUnderWeakFairness := by
  intro e moves k n c hexec hfair hsound hc hheld
  have hn : (e n).HostHeld k := ⟨c, hc, hheld⟩
  obtain ⟨i, hall, d, hd, hfree, hmove⟩ := hexec.exists_release hsound hfair hn
  refine ⟨n + i, d, Nat.le_add_right n i, fun j hnj hji => ?_, hd, hfree, hmove, ?_⟩
  · obtain ⟨j, rfl⟩ := Nat.exists_eq_add_of_le hnj
    exact hall j (by omega)
  · have hcount := hexec.stepsLeft_add_count hsound hall
    have hpos := (hall i (Nat.le_refl i)).txStepsLeft_pos
    have hbound := hn.txStepsLeft_le (hexec.sound hsound n)
    have hlast := txMoveCount_succ moves k n i
    rw [Nat.add_assoc, Nat.add_sub_cancel_left]
    change txMoveCount moves k n (i + 1) ≤ _
    split at hlast <;> omega

end Sys2Proof.Machine
end

section
/-! SUPPORT. The table computation (43_table.md R191, R192) on either side of `1 .. TICK_MAX`, TBL_INIT by its ends, and how
far a tick count is from the exact product (R197). -/
namespace Sys2Proof.Machine

/-! The ends of the computation -/

theorem all_tickOk_iff (p : Params) (c : Nat) :
    (tickList p c).all (tickOk p) = true ↔ ∀ n ∈ tickList p c, 1 ≤ n ∧ n ≤ p.tickMax := by
  simp only [List.all_eq_true, tickOk_iff]

/-- The test of R191, count by count. -/
theorem not_ticks_inRange_iff (p : Params) (c : Nat) :
    (¬ ∀ n ∈ tickList p c, 1 ≤ n ∧ n ≤ p.tickMax) ↔
      ∃ ns ∈ [p.t0hNs, p.t0lNs, p.t1hNs, p.t1lNs, p.tresetNs],
        ticks p.tickRounding ns c = 0 ∨ p.tickMax < ticks p.tickRounding ns c := by
  simp only [tickList, List.forall_mem_map, not_forall, exists_prop, not_and_or, not_le, Nat.lt_one_iff]

theorem computeTable_zero (p : Params) : computeTable p 0 = .error .noClock := if_pos rfl

section
variable {p : Params} {c : Word} (hc : c ≠ 0)
include hc

theorem computeTable_of_inRange (h : ∀ n ∈ tickList p c.toNat, 1 ≤ n ∧ n ≤ p.tickMax) :
    computeTable p c = .ok (tableOf p c) := by
  rw [computeTable, if_neg hc, if_pos ((all_tickOk_iff p _).mpr h)]

theorem computeTable_of_not_inRange (h : ¬ ∀ n ∈ tickList p c.toNat, 1 ≤ n ∧ n ≤ p.tickMax) :
    computeTable p c = .error .tickRange := by
  rw [computeTable, if_neg hc, if_neg (mt (all_tickOk_iff p _).mp h)]

end

/-- The fields hold their tick counts in full: up to TICK_MAX they fit 16 bits. -/
theorem tableOf_toNat {p : Params} {c : Word} (hmax : p.tickMax < 2 ^ 16)
    (h : ∀ n ∈ tickList p c.toNat, 1 ≤ n ∧ n ≤ p.tickMax) :
    (tableOf p c).t0h.toNat = ticks p.tickRounding p.t0hNs c.toNat ∧
    (tableOf p c).t0l.toNat = ticks p.tickRounding p.t0lNs c.toNat ∧
    (tableOf p c).t1h.toNat = ticks p.tickRounding p.t1hNs c.toNat ∧
    (tableOf p c).t1l.toNat = ticks p.tickRounding p.t1lNs c.toNat ∧
    (tableOf p c).trst.toNat = ticks p.tickRounding p.tresetNs c.toNat := by
  have field : ∀ n ∈ tickList p c.toNat, (BitVec.ofNat 16 n).toNat = n := by
    intro n hn
    have hr := h n hn
    rw [BitVec.toNat_ofNat, Nat.mod_eq_of_lt (by omega)]
  refine ⟨field _ ?_, field _ ?_, field _ ?_, field _ ?_, field _ ?_⟩ <;> simp [tickList]

/-! TBL_INIT -/

section
variable {s : State} {c : Channel} (hc : s.chan? s.cur = some c)
include hc

theorem exec_tblInit_of_valid (hv : s.tbl.valid = true) :
    exec .tblInit s = .next (s.putChan s.cur c.dupInit) := by
  simp [exec_some _ hc, Effect.chan, Effect.table, Effect.initTable, State.putChan, hv]

theorem exec_tblInit_of_error {e : ErrCode} (hv : s.tbl.valid = false) (he : computeTable s.par c.clkHz = .error e) :
    exec .tblInit s = .next (s.putChan s.cur (c.initFailed e)) := by
  simp [exec_some _ hc, Effect.chan, Effect.table, Effect.initTable, State.putChan, hv, he]

theorem exec_tblInit_of_ok {t : Table} (hv : s.tbl.valid = false) (ht : computeTable s.par c.clkHz = .ok t) :
    exec .tblInit s = .next { s with tbl := t } := by
  rw [exec_some _ hc]
  simp only [Effect.chan, Effect.table, Effect.initTable, hv, ht, Bool.false_eq_true, if_false, State.putChan_self hc]

end

/-- Settles O16: `bad` says that the counts of `tickList` are not all in range, which decides the end of the computation. -/
theorem tblInitInstallsOnceOrRecordsTheError : Obligations.TblInitInstallsOnceOrRecordsTheError := by
  refine ⟨rfl, fun s c hc hmax => ?_⟩
  intro tk bad
  have hbad : bad ↔ ¬ ∀ n ∈ tickList s.par c.clkHz.toNat, 1 ≤ n ∧ n ≤ s.par.tickMax :=
    (not_ticks_inRange_iff s.par _).symm
  refine ⟨exec_tblInit_of_valid hc, fun hv h0 => ?_, fun hv hne h => ?_, fun hv hne h => ?_⟩
  · exact exec_tblInit_of_error hc hv (h0 ▸ computeTable_zero s.par)
  · exact exec_tblInit_of_error hc hv (computeTable_of_not_inRange hne (hbad.mp h))
  · have hrange := not_not.mp (mt hbad.mpr h)
    exact ⟨tableOf s.par c.clkHz, exec_tblInit_of_ok hc hv (computeTable_of_inRange hne hrange), rfl, rfl,
      tableOf_toNat hmax hrange⟩

/-! The table of R195 -/

section
variable {r : TickRounding} {c : Word} {l : List Nat}

/-- A row of R195 that installs; 32767 is the default TICK_MAX. -/
theorem default_row_ok (hl : tickList { Config.params with tickRounding := r } c.toNat = l)
    (hc : c ≠ 0 := by decide) (h : ∀ n ∈ l, 1 ≤ n ∧ n ≤ 32767 := by decide) :
    tickList { Config.params with tickRounding := r } c.toNat = l ∧
    computeTable { Config.params with tickRounding := r } c = .ok (tableOf { Config.params with tickRounding := r } c) :=
  ⟨hl, computeTable_of_inRange hc (hl ▸ h)⟩

/-- A row of R195 that answers TICK_RANGE. -/
theorem default_row_tickRange (hl : tickList { Config.params with tickRounding := r } c.toNat = l)
    (hc : c ≠ 0 := by decide) (h : ¬ ∀ n ∈ l, 1 ≤ n ∧ n ≤ 32767 := by decide) :
    tickList { Config.params with tickRounding := r } c.toNat = l ∧
    computeTable { Config.params with tickRounding := r } c = .error .tickRange :=
  ⟨hl, computeTable_of_not_inRange hc (hl ▸ h)⟩

end

/-- Settles O39, row by row: the counts by evaluation, the result by their range. -/
theorem defaultTickTable : Obligations.DefaultTickTable :=
  ⟨fun r => ⟨default_row_ok (by cases r <;> rfl), default_row_ok (by cases r <;> rfl),
      default_row_tickRange (by cases r <;> rfl), computeTable_zero _⟩,
    default_row_ok rfl, default_row_ok rfl, default_row_ok rfl, default_row_ok rfl, default_row_tickRange rfl,
    default_row_ok rfl, default_row_tickRange rfl, default_row_tickRange rfl, default_row_ok rfl, default_row_ok rfl⟩

/-! Quantisation -/

/-- FLOOR rounds the exact product down by less than one tick. -/
theorem ticks_floor_bounds (ns c : Nat) :
    ticks .floor ns c * 10 ^ 9 ≤ ns * c ∧ ns * c < ticks .floor ns c * 10 ^ 9 + 10 ^ 9 := by
  simp only [ticks]
  omega

/-- NEAREST rounds the exact product by at most half a tick either way. -/
theorem ticks_nearest_bounds (ns c : Nat) :
    2 * (ns * c) ≤ 2 * (ticks .nearest ns c * 10 ^ 9) + 10 ^ 9 ∧
      2 * (ticks .nearest ns c * 10 ^ 9) ≤ 2 * (ns * c) + 10 ^ 9 := by
  simp only [ticks]
  omega

/-- A whole number of ticks is exact under either rounding. -/
theorem ticks_mul_of_dvd (r : TickRounding) {ns c : Nat} (h : 1000000000 ∣ ns * c) :
    ticks r ns c * 1000000000 = ns * c := by
  cases r <;> simp only [ticks] <;> omega

/-- Settles O40: the bounds of `ticks` divided by the clock rate; at 80 MHz every default duration is a whole number of
ticks. -/
theorem quantisationOfAPhase : Obligations.QuantisationOfAPhase := by
  refine ⟨fun ns c hc => ?_, fun ns hns r => ticks_mul_of_dvd r ?_⟩
  · have hpos : (0 : ℚ) < c := Nat.cast_pos.mpr hc
    have hns : (ns : ℚ) = (ns * c : ℚ) / c := (mul_div_cancel_right₀ _ hpos.ne').symm
    have hhalf : (10 ^ 9 / (2 * c) : ℚ) = (10 ^ 9 / 2) / c := (div_div _ _ _).symm
    obtain ⟨hfloor, hfloor'⟩ := ticks_floor_bounds ns c
    obtain ⟨hnear, hnear'⟩ := ticks_nearest_bounds ns c
    qify at hfloor hfloor' hnear hnear'
    rw [hhalf, hns, ← sub_div, ← sub_div, ← add_div]
    simp only [div_lt_div_iff_of_pos_right hpos, div_le_div_iff_of_pos_right hpos]
    refine ⟨⟨?_, ?_⟩, ?_, ?_⟩ <;> linarith
  · revert ns
    decide

end Sys2Proof.Machine
end

section
/-! SUPPORT. The control commands (44_control.md R210 to R212): STATUS after CLR_STAT, and the fields that NOP, CLR_STAT,
TBL_INIT and the illegal words can change of their channel. -/
namespace Sys2Proof.Machine

/-- Settles O9: the channel put back is the one that was there. -/
theorem nopChangesNothing : Obligations.NopChangesNothing := by
  refine ⟨decodeWord_encode (i := .nop) rfl, fun s c hc => ?_⟩
  rw [exec_of_ne_tblInit (i := .nop) nofun hc, Effect.chan, State.putChan_self hc]

/-- Bits 2:0 are TBL_VALID, FRAME_VALID and BUSY; every bit above belongs to a field that CLR_STAT clears. -/
theorem statusWord_clearStatus (t : Table) (c : Channel) : statusWord t c.clearStatus = statusWord t c &&& 0x7 := by
  refine BitVec.eq_of_getLsbD_eq fun b hb => ?_
  have hcode (j : Nat) : ErrCode.none.code.getLsbD j = false := BitVec.getLsbD_zero
  rw [BitVec.and_comm] -- the mask's bit first, on which the conjunction reduces
  simp only [BitVec.getLsbD_and, getLsbD_statusWord, Channel.clearStatus_errCode, hcode]
  interval_cases b <;> rfl

/-- Settles O10: the effect of CLR_STAT, and STATUS bit by bit. -/
theorem clrStatClearsBits3To11 : Obligations.ClrStatClearsBits3To11 :=
  ⟨decodeWord_encode (i := .clrStat) rfl, fun s c hc => ⟨exec_of_ne_tblInit nofun hc, statusWord_clearStatus s.tbl c⟩⟩

/-- Settles O11: the statement's two conditions are those of `isReservedWord`. -/
theorem illegalWordIsOnlyRecorded : Obligations.IllegalWordIsOnlyRecorded := by
  intro s c w hc hw
  have hreserved : isReservedWord w = true := by simpa [isReservedWord] using hw
  exact ⟨decodeWord_of_reserved hreserved, exec_of_ne_tblInit nofun hc⟩

/-- The three ends of TBL_INIT (43_table.md R190, R191) on its channel. -/
theorem Effect.chan_tblInit_cases (p : Params) (t : Table) (c : Channel) :
    Effect.chan p t c .tblInit = c.dupInit ∨ Effect.chan p t c .tblInit = c ∨
      ∃ e, Effect.chan p t c .tblInit = c.initFailed e := by
  rw [Effect.chan]
  split
  · exact .inl rfl
  · split
    · exact .inr (.inl rfl)
    · exact .inr (.inr ⟨_, rfl⟩)

/-- A status command writes flags of STATUS at most, and of these each only what its rule names: CLR_STAT all six,
TBL_INIT the table's two and the code, an illegal word ILL_CMD and the code. -/
theorem Effect.chan_of_status (p : Params) (t : Table) (c : Channel) {i : Instr}
    (hi : i = .nop ∨ i = .clrStat ∨ i = .tblInit ∨ ∃ w, i = .illegal w) :
    ∃ dup init enc xmt ill code,
      Effect.chan p t c i =
        { c with dupWarn := dup, initFail := init, encErr := enc, xmitErr := xmt, illCmd := ill, errCode := code } ∧
      (i ≠ .clrStat → enc = c.encErr ∧ xmt = c.xmitErr) ∧
      (i ≠ .clrStat → i ≠ .tblInit → dup = c.dupWarn ∧ init = c.initFail) ∧
      (i = .nop ∨ i = .tblInit → ill = c.illCmd) := by
  rcases hi with rfl | rfl | rfl | ⟨w, rfl⟩
  · exact ⟨_, _, _, _, _, _, rfl, fun _ => ⟨rfl, rfl⟩, fun _ _ => ⟨rfl, rfl⟩, fun _ => rfl⟩
  · exact ⟨_, _, _, _, _, _, rfl, fun h => absurd rfl h, fun h => absurd rfl h, nofun⟩
  · rcases Effect.chan_tblInit_cases p t c with h | h | ⟨e, h⟩ <;> rw [h] <;>
      exact ⟨_, _, _, _, _, _, rfl, fun _ => ⟨rfl, rfl⟩, fun _ h => absurd rfl h, fun _ => rfl⟩
  · exact ⟨_, _, _, _, _, _, rfl, fun _ => ⟨rfl, rfl⟩, fun _ _ => ⟨rfl, rfl⟩, nofun⟩

/-- Settles O24: the channel is the old one but for the flags its command may write, and only TBL_INIT writes the table. -/
theorem statusCommandsFrame : Obligations.StatusCommandsFrame := by
  intro i s t c hc hexec hi
  obtain ⟨dup, init, enc, xmt, ill, code, hchan, herr, hinit, hill⟩ := Effect.chan_of_status s.par s.tbl c hi
  rw [exec_some i hc, hchan] at hexec
  cases hexec
  exact ⟨_, State.chan?_putChan_self _ hc, rfl, rfl, rfl, rfl, rfl, rfl, rfl, fun _ => rfl, rfl, rfl, rfl, rfl, rfl, rfl,
    herr, hinit, hill, Effect.table_of_ne_tblInit⟩

end Sys2Proof.Machine
end

section
/-! SUPPORT. What a command reaches (60_exceptions.md R242, R237): its own channel and, by TBL_INIT, the table; and no error
ends a run. -/
namespace Sys2Proof.Machine

/-- Settles O59: a fault needs an access that is not admitted, and a step only shortens the hosts' programs. -/
theorem admittedProgramsNeverStop : Obligations.AdmittedProgramsNeverStop :=
  fun _ h => h.exists_step

/-- Settles O27: the state after a command is the old one but for the channel put back and the table it makes. -/
theorem commandReachesOnlyItsChannel : Obligations.CommandReachesOnlyItsChannel := by
  intro i s t hexec
  obtain ⟨c, hc, rfl⟩ := exec_next hexec
  refine ⟨rfl, rfl, rfl, rfl, List.length_set, fun j hj => State.chan?_putChan_other s _ hj, fun hne => ?_⟩
  have hi : i = .tblInit := by
    by_contra hi
    exact hne (Effect.table_of_ne_tblInit hi)
  subst hi
  exact ⟨rfl, ((Effect.initTable_cases s.par s.tbl c).resolve_left hne).1⟩

end Sys2Proof.Machine
end

section
/-! SUPPORT. ERR_CODE after a command, and the flag beside each error (60_exceptions.md R230, R231). -/
namespace Sys2Proof.Machine

/-- Out of `1 .. TICK_MAX`, or with no clock rate, the computation answers an error (43_table.md R191). -/
theorem computeTable_error_of_bad {p : Params} {c : Word}
    (h : c = 0 ∨ ∃ n ∈ tickList p c.toNat, n = 0 ∨ p.tickMax < n) : ∃ e, computeTable p c = .error e := by
  rcases computeTable_cases p c with ⟨-, herr⟩ | ⟨-, -, herr⟩ | ⟨hne, hall, -⟩
  · exact ⟨_, herr⟩
  · exact ⟨_, herr⟩
  · obtain ⟨n, hn, hbad⟩ := h.resolve_left hne
    have hrange := (all_tickOk_iff p _).mp hall n hn
    omega

section
variable {p : Params} {t : Table} {c : Channel}

theorem Effect.chan_tblInit_of_valid (hv : t.valid = true) : Effect.chan p t c .tblInit = c.dupInit := if_pos hv

theorem Effect.chan_tblInit_of_ok {t' : Table} (hv : t.valid = false) (h : computeTable p c.clkHz = .ok t') :
    Effect.chan p t c .tblInit = c := by
  simp [Effect.chan, hv, h]

theorem Effect.chan_tblInit_of_error {e : ErrCode} (hv : t.valid = false) (h : computeTable p c.clkHz = .error e) :
    Effect.chan p t c .tblInit = c.initFailed e := by
  simp [Effect.chan, hv, h]

end

section
variable (p : Params) (t : Table) (c : Channel)

theorem Effect.chan_tblInit_errCode :
    (Effect.chan p t c .tblInit).errCode =
      if t.valid = true then c.errCode
      else if c.clkHz = 0 then .noClock
      else if ∀ n ∈ tickList p c.clkHz.toNat, 1 ≤ n ∧ n ≤ p.tickMax then c.errCode
      else .tickRange := by
  cases hv : t.valid with
  | true => rw [Effect.chan_tblInit_of_valid hv]; rfl
  | false =>
    rw [if_neg Bool.false_ne_true]
    by_cases h0 : c.clkHz = 0
    · rw [Effect.chan_tblInit_of_error hv (h0 ▸ computeTable_zero p), if_pos h0]; rfl
    · rw [if_neg h0]
      by_cases hrange : ∀ n ∈ tickList p c.clkHz.toNat, 1 ≤ n ∧ n ≤ p.tickMax
      · rw [Effect.chan_tblInit_of_ok hv (computeTable_of_inRange h0 hrange), if_pos hrange]
      · rw [Effect.chan_tblInit_of_error hv (computeTable_of_not_inRange h0 hrange), if_neg hrange]; rfl

theorem Channel.encode_errCode : (c.encode p t).errCode = if t.valid = true then c.errCode else .encNoTable := by
  cases hv : t.valid
  · rw [Channel.encode_invalid p c hv]; rfl
  · rw [Channel.encode_valid p c hv]; rfl

theorem Channel.cycle_errCode : (c.cycle p t).errCode = if t.valid = true then c.errCode else .encNoTable := by
  cases hv : t.valid
  · rw [Channel.cycle_invalid p c hv]; rfl
  · rw [Channel.cycle_valid p c hv]; rfl

theorem Channel.xmit_errCode : c.xmit.errCode = if c.frameValid = true then c.errCode else .noFrame := by
  cases hf : c.frameValid
  · rw [Channel.xmit_none hf]; rfl
  · rw [Channel.xmit_frame hf]; rfl

end

/-- Settles O28: the code command by command, and each error's flag from the operation that raises it. -/
theorem errCodeIsTheLatestError : Obligations.ErrCodeIsTheLatestError := by
  intro i s t c d hexec hc hd
  rw [exec_some i hc] at hexec
  cases hexec
  obtain rfl : Effect.chan s.par s.tbl c i = d := Option.some.inj ((State.chan?_putChan_self _ hc).symm.trans hd)
  refine ⟨?_, ?_, ?_, ?_, ?_⟩
  · cases i with
    | tblInit => exact Effect.chan_tblInit_errCode s.par s.tbl c
    | encode => exact Channel.encode_errCode s.par s.tbl c
    | cycle => exact Channel.cycle_errCode s.par s.tbl c
    | xmit => exact Channel.xmit_errCode c
    | nop | pixWr | pixRd | pixFill | pixClr | clrStat | illegal => rfl
  · rintro rfl hv hbad
    obtain ⟨e, herr⟩ := computeTable_error_of_bad hbad
    rw [Effect.chan_tblInit_of_error hv herr]
    rfl
  · rintro (rfl | rfl) hv
    · rw [Effect.chan, Channel.encode_invalid _ _ hv]; rfl
    · rw [Effect.chan, Channel.cycle_invalid _ _ hv]; rfl
  · rintro rfl hf
    rw [Effect.chan, Channel.xmit_none hf]
    rfl
  · rintro w rfl
    rfl

end Sys2Proof.Machine
end

section
/-! SUPPORT. Isolation of the channels (60_exceptions.md R242): a move of `H_k` or `TX_k`, made in two machines that agree
on what channel `k` can see. -/
namespace Sys2Proof.Machine

/-- An agent without a step leaves the machine as it is, if that does not stop at the bus. -/
theorem step_of_not_enabled {s t : State} {a : Agent} (hagent : Move.agent s.nextMove = some a) (hen : ¬ s.enabled a)
    (hstep : step s = .next t) : t = s.advance := by
  rw [← State.enabled_advance] at hen
  rw [step] at hstep
  cases hmove : s.nextMove with
  | host k =>
    rw [hmove] at hagent hstep
    cases hagent
    rcases hostMove_of_not_enabled hen with h | ⟨f, h⟩
    · exact Host.Outcome.next.inj (hstep.symm.trans h)
    · exact nomatch hstep.symm.trans h
  | tx k d r =>
    rw [hmove] at hagent hstep
    cases hagent
    exact Host.Outcome.next.inj (hstep.symm.trans (txMove_of_not_enabled d r hen))
  | reset =>
    rw [hmove] at hagent
    cases hagent

/-- The two machines agree on what is in the reach of channel `k`: the parameters, the table and the channel itself. -/
structure State.AgreeOn (k : Nat) (s₁ s₂ : State) : Prop where
  par : s₁.par = s₂.par
  tbl : s₁.tbl = s₂.tbl
  chan : s₁.chan? k = s₂.chan? k

section
variable {s₁ s₂ t₁ t₂ : State} {k : Nat}

theorem State.AgreeOn.enabled_host (h : State.AgreeOn k s₁ s₂) : s₁.enabled (.host k) ↔ s₂.enabled (.host k) := by
  simp only [State.enabled, h.par, h.chan]

theorem State.AgreeOn.enabled_tx (h : State.AgreeOn k s₁ s₂) : s₁.enabled (.tx k) ↔ s₂.enabled (.tx k) := by
  simp only [State.enabled, h.chan]

/-- An agent that has no step in either machine leaves what they agree on. -/
theorem State.AgreeOn.of_not_enabled {a : Agent} (h : State.AgreeOn k s₁ s₂) (hen : s₁.enabled a ↔ s₂.enabled a)
    (hnot : ¬ s₁.enabled a) (h₁ : Move.agent s₁.nextMove = some a) (h₂ : Move.agent s₂.nextMove = some a)
    (hstep₁ : step s₁ = .next t₁) (hstep₂ : step s₂ = .next t₂) : State.AgreeOn k t₁ t₂ := by
  obtain rfl := step_of_not_enabled h₁ hnot hstep₁
  obtain rfl := step_of_not_enabled h₂ (mt hen.mpr hnot) hstep₂
  exact ⟨h.par, h.tbl, h.chan⟩

/-- The access of `H_k` is the same in both machines, and so is its effect. -/
theorem State.AgreeOn.step_host (h : State.AgreeOn k s₁ s₂) (h₁ : s₁.nextMove = .host k) (h₂ : s₂.nextMove = .host k)
    (hstep₁ : step s₁ = .next t₁) (hstep₂ : step s₂ = .next t₂) : State.AgreeOn k t₁ t₂ := by
  by_cases hen : s₁.enabled (.host k)
  · obtain ⟨c, a, rest, off, hc₁, hfree, hidle, hprog, ha⟩ := hen
    have hc₂ : s₂.chan? k = some c := h.chan.symm.trans hc₁
    rw [step_host_access h₁ hc₁ hfree hidle hprog ha] at hstep₁
    rw [step_host_access h₂ hc₂ hfree hidle hprog (h.par ▸ ha)] at hstep₂
    cases hstep₁
    cases hstep₂
    refine ⟨h.par, ?_, ?_⟩
    · simp only [State.afterAccess, State.advance_par, State.advance_tbl, h.par, h.tbl]
    · rw [State.chan?_afterAccess (s := s₁.advance) k _ _ hc₁, State.chan?_afterAccess (s := s₂.advance) k _ _ hc₂]
      simp only [State.advance_par, State.advance_tbl, h.par, h.tbl, if_true]
  · exact h.of_not_enabled h.enabled_host hen (by rw [h₁]; rfl) (by rw [h₂]; rfl) hstep₁ hstep₂

/-- The step of `TX_k` reads its channel and its draws alone. -/
theorem State.AgreeOn.step_tx {d : Draw} {r : TxResult} (h : State.AgreeOn k s₁ s₂) (h₁ : s₁.nextMove = .tx k d r)
    (h₂ : s₂.nextMove = .tx k d r) (hstep₁ : step s₁ = .next t₁) (hstep₂ : step s₂ = .next t₂) :
    State.AgreeOn k t₁ t₂ := by
  by_cases hen : s₁.enabled (.tx k)
  · obtain ⟨c, hc₁, hactive⟩ := hen
    have hc₂ : s₂.chan? k = some c := h.chan.symm.trans hc₁
    rw [Machine.step_tx h₁ hc₁ hactive] at hstep₁
    rw [Machine.step_tx h₂ hc₂ hactive] at hstep₂
    cases hstep₁
    cases hstep₂
    refine ⟨h.par, h.tbl, ?_⟩
    rw [State.chan?_putChan_self (s := s₁.advance) _ hc₁, State.chan?_putChan_self (s := s₂.advance) _ hc₂]
  · exact h.of_not_enabled h.enabled_tx hen (by rw [h₁]; rfl) (by rw [h₂]; rfl) hstep₁ hstep₂

end

/-- A move of `H_k` or `TX_k` leaves every other channel as it is. -/
theorem step_chan_other {s t : State} {j k : Nat} (hmove : s.nextMove = .host k ∨ ∃ d r, s.nextMove = .tx k d r)
    (hj : j ≠ k) (hstep : step s = .next t) : t.chan? j = s.chan? j := by
  rcases step_next hstep with rfl | ⟨i, c, a, rest, off, hi, hc, -, -, -, -, rfl⟩ | ⟨i, d, r, c, hi, -, -, rfl⟩ |
    ⟨hi, -⟩
  · rfl
  · obtain rfl : i = k := by simpa [hi] using hmove
    rw [State.chan?_afterAccess (s := s.advance) j _ _ hc, if_neg hj, State.chan?_advance]
  · obtain rfl : i = k := by simpa [hi] using hmove
    rw [State.chan?_putChan_other _ _ hj, State.chan?_advance]
  · simp [hi] at hmove

/-- Settles O55: the two runs go on agreeing, and one run alone shows that no other channel changes. -/
theorem channelsAreIsolated : Obligations.ChannelsAreIsolated := by
  intro s₁ s₂ t₁ t₂ k m hm h₁ h₂ hpar htbl hchan hstep₁ hstep₂
  have hagree : State.AgreeOn k s₁ s₂ := ⟨hpar, htbl, hchan⟩
  have hafter : State.AgreeOn k t₁ t₂ := by
    rcases hm with rfl | ⟨d, r, rfl⟩
    · exact hagree.step_host h₁ h₂ hstep₁ hstep₂
    · exact hagree.step_tx h₁ h₂ hstep₁ hstep₂
  exact ⟨hafter.chan, hafter.tbl, fun j hj => step_chan_other (h₁ ▸ hm) hj hstep₁⟩

end Sys2Proof.Machine
end

section
/-! SUPPORT. A frame in ticks (70_reset_and_hazards.md R272), summed symbol by symbol. -/
namespace Sys2Proof.Machine

@[simp] theorem pulsesTicks_nil : pulsesTicks [] = 0 := rfl

@[simp] theorem pulsesTicks_append (f g : List Pulse) : pulsesTicks (f ++ g) = pulsesTicks f + pulsesTicks g := by
  rw [pulsesTicks, List.map_append, List.sum_append]
  rfl

@[simp] theorem pulsesTicks_rst (t : Table) : pulsesTicks [rst t] = t.trst.toNat := rfl

theorem pulsesTicks_sym (t : Table) (b : Bool) :
    pulsesTicks (sym t b) = if b then t.t1h.toNat + t.t1l.toNat else t.t0h.toNat + t.t0l.toNat := by
  cases b <;> rfl

theorem pulsesTicks_flatMap_sym (t : Table) (bits : List Bool) :
    pulsesTicks (bits.flatMap (sym t)) =
      bits.count true * (t.t1h.toNat + t.t1l.toNat) + bits.count false * (t.t0h.toNat + t.t0l.toNat) := by
  induction bits with
  | nil => simp
  | cons b bits ih =>
    rw [List.flatMap_cons, pulsesTicks_append, pulsesTicks_sym, ih]
    cases b with
    | true =>
      rw [List.count_cons_self, List.count_cons_of_ne (by decide), if_pos rfl]
      ring
    | false =>
      rw [List.count_cons_self, List.count_cons_of_ne (by decide), if_neg (by decide)]
      ring

/-- Settles O36: the symbols of the bits, then the reset pulse. -/
theorem frameTicksAreTheSumOfItsBits : Obligations.FrameTicksAreTheSumOfItsBits := by
  intro p t en snap
  rw [buildFrame, pulsesTicks_append, pulsesTicks_flatMap_sym, pulsesTicks_rst]

end Sys2Proof.Machine
end

section
/-! SUPPORT. Repeated halving (70_reset_and_hazards.md R269): `n` halvings divide by `2 ^ n`, under FLOOR the value itself and
under HALF_UP what it is above 1. -/
namespace Sys2Proof.Machine

theorem toNat_iterate_half_floor (v : Byte) (n : Nat) : ((half .floor)^[n] v).toNat = v.toNat / 2 ^ n := by
  induction n with
  | zero => simp
  | succ n ih =>
    rw [Function.iterate_succ_apply', toNat_half, ih, pow_succ, ← Nat.div_div_eq_div_mul]
    rfl

/-- Under HALF_UP a value above 0 stays above 0, and its distance from 1 is halved and rounded down. -/
theorem toNat_iterate_half_halfUp {v : Byte} (hv : v ≠ 0) (n : Nat) :
    ((half .halfUp)^[n] v).toNat = (v.toNat - 1) / 2 ^ n + 1 := by
  induction n with
  | zero =>
    have hpos : v.toNat ≠ 0 := fun h => hv (BitVec.eq_of_toNat_eq h)
    rw [Function.iterate_zero_apply, pow_zero, Nat.div_one]
    omega
  | succ n ih =>
    rw [Function.iterate_succ_apply', toNat_half, ih, if_pos rfl, pow_succ, ← Nat.div_div_eq_div_mul]
    omega

/-- Settles O30: after eight halvings or more nothing is left of a number below 2^8. -/
theorem repeatedHalvingDecays : Obligations.RepeatedHalvingDecays := by
  intro v n hn
  have hlt : v.toNat < 2 ^ n := v.isLt.trans_le (Nat.pow_le_pow_right (by decide) hn)
  refine ⟨BitVec.eq_of_toNat_eq ?_, fun hv => BitVec.eq_of_toNat_eq ?_⟩
  · rw [toNat_iterate_half_floor, Nat.div_eq_of_lt hlt]
    rfl
  · rw [toNat_iterate_half_halfUp hv, Nat.div_eq_of_lt (Nat.sub_lt_of_lt hlt)]
    rfl

end Sys2Proof.Machine
end

section
/-! SUPPORT. The state after reset and after a block reset (70_reset_and_hazards.md R260, R261). -/
namespace Sys2Proof.Machine

/-! Reset -/

theorem State.chan?_resetWith {p : Params} {k : Nat} (h : k < p.k) :
    (State.resetWith p).chan? k = some (Channel.reset p) := List.getElem?_replicate_of_lt h

theorem statusWord_reset (p : Params) : statusWord Table.reset (Channel.reset p) = 0 := by
  simp [statusWord, Table.reset, Channel.reset, ErrCode.code]

/-- Settles O6: every register but STATUS and LED_COUNT reads its value by definition. -/
theorem resetLeavesTheListedValues : Obligations.ResetLeavesTheListedValues := by
  intro p k hk
  refine ⟨rfl, Channel.reset p, State.chan?_resetWith hk, List.length_replicate, fun i => Memory.getElem?_reset, ?_,
    rfl, rfl, rfl, rfl, rfl, rfl, rfl, rfl⟩
  exact ⟨rfl, statusWord_reset p, rfl, rfl, Nat.mod_eq_of_lt, rfl, rfl, rfl, rfl, rfl, rfl, rfl⟩

/-! Soundness -/

/-- A channel at reset is sound with any table: it holds no pulse, no flag and no transmission. -/
theorem Channel.sound_reset (p : Params) (t : Table) : (Channel.reset p).Sound p t where
  pixLength := Memory.wf_reset p.ne
  busyActive := rfl
  heldActive := rfl
  frameHeld := nofun
  noFrame := fun _ => rfl
  frameLenRange := .inl rfl
  encErrNoFrame := nofun
  dupWarnValid := nofun
  idleLow := fun _ => rfl
  txFrame := nofun
  txPos := Nat.le_refl 0
  txSent := nofun
  txDriven := nofun
  pulsesInRange := nofun

theorem State.sound_resetWith {p : Params} (hp : p.ok = true) : (State.resetWith p).Sound where
  parOk := hp
  channels := List.length_replicate
  table := Table.sound_reset p
  each := by
    intro c hc
    rw [List.eq_of_mem_replicate hc]
    exact Channel.sound_reset p Table.reset

/-- No host has an access to issue at reset (log 5). -/
theorem State.programsAdmitted_resetWith (p : Params) : (State.resetWith p).ProgramsAdmitted := by
  intro k c hc a ha
  rw [List.eq_of_mem_replicate (State.chan?_mem hc)] at ha
  cases ha

/-- Settles O57; the default parameters are checked by evaluation. -/
theorem resetIsSound : Obligations.ResetIsSound :=
  ⟨fun p hp => ⟨State.sound_resetWith hp, State.programsAdmitted_resetWith p⟩, by decide⟩

/-! Block reset -/

theorem step_reset {s : State} (h : s.nextMove = .reset) : step s = .next s.advance.blockReset := by
  rw [step, h, runMove]

/-- Settles O8: each channel becomes its own block reset, which keeps its line's record and its host's data. -/
theorem blockResetRestoresEverything : Obligations.BlockResetRestoresEverything := by
  intro s hreset
  refine ⟨_, step_reset hreset, rfl, rfl, fun k c hc => ?_⟩
  rw [State.chan?_blockReset, State.chan?_advance, hc]
  rfl

end Sys2Proof.Machine
end
